-- ==== Sys2Proof/Word.lean ====
section
/-! DEFINITION. The plain types every other file is written in: bytes, texts, identifiers and the
numbers of the manual's objects (spec 00 section 2.1). -/

namespace Sys2Proof

/-- One byte of the host link, of a page or of audio. -/
abbrev Byte := BitVec 8

/-- A text of printable characters: labels, verbs, field names and field values (R194). -/
abbrev Text := List Char

/-- A unit id, a 32-bit value (spec 00 section 2.2). -/
abbrev UnitId := BitVec 32

/-- A value or a span of the time base, in milliseconds (spec 00 section 2.4). -/
abbrev Millis := Nat

/-- One cycle of audio as the part carries it, uninspected (R193). -/
abbrev Audio := List Byte

/-- Zones 0 to 7. -/
abbrev ZoneNo := Fin 8

/-- Racks 0 to 7. -/
abbrev RackNo := Fin 8

/-- Bays of a rack: the value is the manual's number less 1. -/
abbrev BayNo := Fin 24

/-- Tours: the value is the manual's number less 1. -/
abbrev TourNo := Fin 32

/-- Languages: the value is the manual's code less 1; "no language" is the absence of one. -/
abbrev LangNo := Fin 16

/-- Provisioning channels 0 to 3. -/
abbrev ChannelNo := Fin 4

/-- Issue records: the value is the manual's number less 1. -/
abbrev IssueNo := Fin 16

/-- House tracks: the value is the manual's number less 1. -/
abbrev TrackNo := Fin 4

/-- A bay, rack.bay in the manual. -/
structure BayRef where
  rack : RackNo
  no   : BayNo
deriving DecidableEq, Repr

/-- A unit id that is neither 00000000 nor FFFFFFFF (spec 00 section 2.2). -/
def validUnit (u : UnitId) : Bool := u != 0#32 && u != 0xFFFFFFFF#32

/-- The eight zones, ascending. -/
def allZones : List ZoneNo := List.finRange 8

/-- The eight racks, ascending. -/
def allRacks : List RackNo := List.finRange 8

/-- The bays of a rack, ascending. -/
def allBayNos : List BayNo := List.finRange 24

/-- The 32 tours, ascending. -/
def allTours : List TourNo := List.finRange 32

/-- The 16 languages, ascending. -/
def allLangs : List LangNo := List.finRange 16

/-- The four channels, ascending. -/
def allChannels : List ChannelNo := List.finRange 4

/-- The 16 issue records, ascending. -/
def allIssues : List IssueNo := List.finRange 16

/-- Every bay, racks ascending and bays ascending within each rack. -/
def allBays : List BayRef := allRacks.flatMap fun r => allBayNos.map fun b => ⟨r, b⟩

end Sys2Proof
end

