-- ==== Sys2Proof/Syntax.lean ====
section
/-! DEFINITION. The commands of the part: one constructor of `Instr` per row of
spec/opcode_table.json, with the operands its message, pin or record carries, and the names those
operands are made of. -/

namespace Sys2Proof

/-- Class of a unit (spec 00 section 2.2); also the name of an image slot (spec 00 section 2.1). -/
inductive UnitClass where
  | listener | voice
deriving DecidableEq, Repr

/-- Fault classes, in the manual's order (R20, R122). -/
inductive FaultClass where
  | hot | overvolt | slow | weakcell | contact | mute
deriving DecidableEq, Repr

/-- How a fault record is cleared (R122). -/
inductive Recovery where
  | onRemove | onClear
deriving DecidableEq, Repr

/-- The areas of a unit's storage (R160). -/
inductive Area where
  | boot | firmware | tune
deriving DecidableEq, Repr

/-- The maintenance operations of JOB_MAINT (R170). -/
inductive MaintOp where
  | read | write | erase
deriving DecidableEq, Repr

/-- A tune: tour and language. Written (tour, language) in the manual; also a tour stream. -/
structure Tune where
  tour : TourNo
  lang : LangNo
deriving DecidableEq, Repr

/-- The stream of a carriage: a tour stream or a house track (R54). -/
inductive CarrStream where
  | tour (t : Tune)
  | house (k : TrackNo)
deriving DecidableEq, Repr

/-- The event kinds of the reports, in the order of the table of R199. -/
inductive EventKind where
  | start | house | starved | retireListFull
  | violation | parked | stopped
  | issued | picking | wrongBay | taken | expired | failed | cancelled
  | rackOnline | rackOffline | rackRejected | buttonPressed
  | seated | unseated | topped | bayDisabled | bayEnabled | tableFull
  | fault | faultCleared | jobDone | jobFailed | jobAborted
  | zoneUp | zoneDown | crowded
  | state | sources
  | slotState
  | found | stray | adopted | silent | evicted | retired
  | retuned | untuned | located | noticeTimeout
deriving DecidableEq, Repr

/-- Profile parameters that hold a number without a zone, rack, language or class in their name
(spec 12 section 12.2). -/
inductive NumParam where
  | silenceLimit | zoneMargin | zoneStale | linger | noticeLife | pickTime | issueLimit
  | readyLevel | topupLevel | hotLimit | voltLimit | chargeLimit | weakGain | weakWindow
  | strikeLimit | t1 | t2 | t3 | t4 | alarm | blinkRate | flashRate | pickRate
  | rampDelay | hold
deriving DecidableEq, Repr

/-- A parameter that SET and GET name (spec 12 section 12.2). -/
inductive Param where
  | zoneEnable (z : ZoneNo)
  | zoneLabel (z : ZoneNo)
  | zoneCarrier (z : ZoneNo)
  | rackEnable (r : RackNo)
  | langEnable (l : LangNo)
  | langName (l : LangNo)
  | retireAfter (c : FaultClass)
  | recovery (c : FaultClass)
  | num (n : NumParam)
  | autoRefresh
deriving DecidableEq, Repr

/-- The value a SET field is written with; `bad` is a text that has not its parameter's form. -/
inductive SetValue where
  | onOff (b : Bool)
  | label (t : Text)
  | num (n : Nat)
  | recovery (r : Recovery)
  | bad
deriving DecidableEq, Repr

/-- One operand of a host verb: its field was not written, was written in a form the field does
not take, or was written with a value (R194). -/
inductive HostField (α : Type) where
  | absent
  | bad
  | val (a : α)
deriving DecidableEq, Repr

/-- A bay as a field writes it, before its range is checked (R194). -/
structure BayName where
  rack : Nat
  bay  : Nat
deriving DecidableEq, Repr

/-- The word ALL or one number (R70). -/
inductive ZoneSel where
  | all
  | one (n : Nat)
deriving DecidableEq, Repr

/-- The word ALL or a list of zone numbers (spec 05 section 5.2). -/
inductive ZoneList where
  | all
  | list (l : List Nat)
deriving DecidableEq, Repr

/-- The word ALL or a list of words; a word that is not an event kind is `none` (R199). -/
inductive KindList where
  | all
  | list (l : List (Option EventKind))
deriving DecidableEq, Repr

/-- The word ALL or a list of names; a name that is not a parameter is `none` (R202). -/
inductive ParamList where
  | all
  | list (l : List (Option Param))
deriving DecidableEq, Repr

/-- A status record as a head decoded it (spec 02 section 2.3; the slot tag is R46's). -/
structure StatusRecord where
  slot    : Nat
  unit    : UnitId
  cls     : UnitClass
  quality : Nat
  level   : Nat
  tour    : Nat
  lang    : Nat
  ack     : Option (BitVec 4)
deriving DecidableEq, Repr

/-- A voice packet of a cycle mark (R46). -/
structure VoicePacket where
  slot  : Nat
  audio : Audio
deriving DecidableEq, Repr

/-- The content of a CYCLE_MARK (R46). -/
structure CycleMark where
  cycle    : BitVec 16
  statuses : List StatusRecord
  packets  : List VoicePacket
deriving DecidableEq, Repr

/-- The data a dock answer DONE returns (R157). -/
inductive DockData where
  | none
  | ident (bytes : List Byte)
  | page (bytes : List Byte)
  | check (value : BitVec 32)
deriving DecidableEq, Repr

/-- A unit's answer to a dock transaction (R158). -/
inductive DockAnswer where
  | done (data : DockData)
  | notBlank
  | verifyFail
  | refused
deriving DecidableEq, Repr

/-- An event of a POLL_ANSWER (R99). Bays are the manual's numbers, as the module gives them. -/
inductive PollEvent where
  | seat (bay : Nat) (unit : UnitId) (cls : UnitClass)
  | unseat (bay : Nat)
  | bounce (bay : Nat)
  | telemetry (bay : Nat) (mv : Nat) (ma : Int) (temp : Int) (level : Nat)
  | terminated (bay : Nat)
  | button
  | dockAnswer (channel : ChannelNo) (bay : Nat) (serial : Byte) (answer : DockAnswer)
deriving DecidableEq, Repr

/-- The levels of the two rate straps (R206); `true` is high. -/
structure Straps where
  rate1 : Bool
  rate0 : Bool
deriving DecidableEq, Repr, Inhabited

/-- The commands of the part, one constructor per row of the table. A host verb carries the tag of
its COMMAND frame and its fields in the order its rule lists them. -/
inductive Instr where
  -- reset and start-up (R204)
  | powerOn (straps : Straps)
  | resetLine (straps : Straps)
  | startUpLoadDone
  -- the host line (R191 to R198)
  | lineBreak
  | characterError
  | hostFrameDiscarded (bytes : List Byte)
  | audio (track : Byte) (body : List Byte)
  | command (tag : Byte) (body : List Byte)
  | replySent
  | busyReplySent
  | reportSent
  -- tours (R3 to R11)
  | tourOpen (tag : Byte) (tour : HostField Nat) (label : HostField Text) (floor capacity : HostField Nat)
  | tourStart (tag : Byte) (tour : HostField Nat)
  | tourPause (tag : Byte) (tour : HostField Nat)
  | tourClose (tag : Byte) (tour : HostField Nat)
  | tourCapacity (tag : Byte) (tour capacity : HostField Nat)
  | tourRead (tag : Byte) (tour : HostField Nat)
  | tourVoiceAdd (tag : Byte) (tour language : HostField Nat) (unit : HostField UnitId)
  | tourVoiceDrop (tag : Byte) (tour language : HostField Nat)
  -- units (R39 to R42, R83, R84, R134 to R137)
  | unitRead (tag : Byte) (unit : HostField UnitId)
  | unitList (tag : Byte) (start count : HostField Nat)
  | unitForget (tag : Byte) (unit : HostField UnitId)
  | unitUnassign (tag : Byte) (unit : HostField UnitId)
  | unitRetune (tag : Byte) (unit : HostField UnitId) (tour language : HostField Nat)
  | unitLocate (tag : Byte) (unit : HostField UnitId)
  | unitRetire (tag : Byte) (unit : HostField UnitId)
  | retirePurge (tag : Byte) (unit : HostField UnitId)
  | retireList (tag : Byte) (start count : HostField Nat)
  -- zones (R68 to R70)
  | zoneRead (tag : Byte) (zone : HostField Nat)
  | zoneSlots (tag : Byte) (zone : HostField Nat)
  | zoneStatsClear (tag : Byte) (zone : HostField ZoneSel)
  -- house programs (R88 to R90, R96)
  | houseStart (tag : Byte) (zones : HostField ZoneList) (languages : HostField (List Nat))
  | houseZones (tag : Byte) (zones : HostField ZoneList)
  | houseStop (tag : Byte)
  | houseRead (tag : Byte)
  -- racks, bays and faults (R117 to R120, R131, R132)
  | rackRead (tag : Byte) (rack : HostField Nat)
  | bayRead (tag : Byte) (bay : HostField BayName)
  | bayDisable (tag : Byte) (bay : HostField BayName)
  | bayEnable (tag : Byte) (bay : HostField BayName)
  | faultClear (tag : Byte) (bay : HostField BayName)
  | faultRead (tag : Byte) (bay : HostField BayName)
  -- provisioning (R169 to R175)
  | channelClear (tag : Byte) (channel : HostField Nat)
  | channelStop (tag : Byte) (channel : HostField Nat)
  | channelRead (tag : Byte) (channel : HostField Nat)
  | jobMaint (tag : Byte) (bay : HostField BayName) (op : HostField MaintOp) (area : HostField Area) (addr count : HostField Nat) (data : HostField (List Byte))
  | jobRefresh (tag : Byte) (bay : HostField BayName)
  | jobCancel (tag : Byte) (job : HostField Nat)
  | jobRead (tag : Byte) (job : HostField Nat)
  | jobQueueRead (tag : Byte)
  | jobStatsClear (tag : Byte)
  | imageBegin (tag : Byte) (slot : HostField UnitClass) (revision pages : HostField Nat) (checksum : HostField (BitVec 32))
  | imagePage (tag : Byte) (slot : HostField UnitClass) (page : HostField Nat) (data : HostField (List Byte))
  | imageSeal (tag : Byte) (slot : HostField UnitClass)
  | imageRead (tag : Byte) (slot : HostField UnitClass)
  -- issue (R179, R187, R189)
  | issue (tag : Byte) (rack : HostField Nat) (cls : HostField UnitClass) (unit : HostField UnitId) (tour language : HostField Nat)
  | issueCancel (tag : Byte) (issue : HostField Nat)
  | issueRead (tag : Byte) (issue : HostField Nat)
  -- settings (R199, R202 to R205)
  | reportEnable (tag : Byte) (on off : HostField KindList)
  | set (tag : Byte) (fields : List (Param × SetValue))
  | get (tag : Byte) (names : HostField ParamList)
  | profileSave (tag : Byte)
  | storeFormat (tag : Byte)
  | restart (tag : Byte)
  | status (tag : Byte)
  -- ends of store operations (R200)
  | profileSaveDone
  | retireListSaveDone
  | regionEraseDone
  | imagePageWriteDone
  | headerWriteDone
  -- zone heads and the air (R32, R47, R48, R51, R57, R81, R93)
  | zoneHello (zone : ZoneNo)
  | cycleMark (zone : ZoneNo) (mark : CycleMark)
  | downTimerExpiry (zone : ZoneNo)
  | housePeriodElapse
  | lingerExpiry (zone : ZoneNo) (stream : CarrStream)
  | silenceExpiry (unit : UnitId)
  | noticeLifeExpiry (unit : UnitId)
  -- the rack bus and the racks (R100 to R105, R124, R146, R147)
  | pollTimerElapse (rack : RackNo)
  | busTurnTimeout
  | rackHello (rack : RackNo) (bayCount revision : Nat)
  | setupDone (rack : RackNo)
  | surveyAnswer (rack : RackNo) (occupants : List (Option (UnitId × UnitClass)))
  | pollAnswer (rack : RackNo) (events : List PollEvent)
  | dockAccept (rack : RackNo)
  | rampTimerElapse (rack : RackNo)
  | holdTimerElapse (rack : RackNo)
  | chargeWatchExpiry (bay : BayRef)
  -- timers of the engine and of the issue controller (R158, R183, R184)
  | dockNoAnswerLimit (channel : ChannelNo)
  | limitTimerExpiry (issue : IssueNo)
  | pickTimerExpiry (issue : IssueNo)
deriving DecidableEq, Repr

end Sys2Proof
end

