-- ==== Sys2Proof/Config.lean ====
section
/-! DEFINITION. What the manual fixes for every part (capacities and fixed times) and the free values:
constants with no body for what the manual leaves open (log 8, 16, 17). -/

namespace Sys2Proof

/-- What an erase that a full reset cuts short leaves of one record (R200; log 16). -/
inductive EraseLeft where
  | kept | erased | failsCheck
deriving DecidableEq, Repr, Inhabited

/-- FREE VALUE (log 16): R200 says a full reset ends an operation unfinished and does not say which
of the records of an erase in progress are already erased. Applied to State's free counter. -/
opaque Config.interruptedErase : Nat → EraseLeft

/-- FREE VALUE (log 17): R45 bounds the cycle count at 4,294,967,295 and does not say what the next
mark makes of it. Applied to State's free counter. -/
opaque Config.cycleCountPastEnd : Nat → BitVec 32

/-- FREE VALUE (log 8): the levels at which the rate straps stand when the full reset after RESTART's
reply reads them (R204, R206); nothing the part holds tells them. Applied to State's free counter. -/
opaque Config.strapsAtRestart : Nat → Straps

/-- Unit table places (R20). -/
def Config.tableSize : Nat := 1024

/-- Ids of the working retire list (R135). -/
def Config.retireListSize : Nat := 1024

/-- Jobs the job queue holds (R152). -/
def Config.queueSize : Nat := 32

/-- Entries of a zone's notice queue (R74). -/
def Config.noticeQueueSize : Nat := 16

/-- Notices a beacon carries (R76). -/
def Config.beaconNotices : Nat := 4

/-- Voice sources of a tour (R10). -/
def Config.sourcesMax : Nat := 4

/-- Frames of a house track's buffer (R86). -/
def Config.houseBuffer : Nat := 8

/-- BUSY replies the link port holds (R195). -/
def Config.busyReplies : Nat := 4

/-- Consecutive unanswered polls that lose a rack (R101). -/
def Config.missedLimit : Nat := 5

/-- Attempts of a dock transaction (R158). -/
def Config.attemptLimit : Nat := 3

/-- The zone's down timer (R48). -/
def Config.downTime : Millis := 250

/-- The period of the house controller (R93). -/
def Config.housePeriod : Millis := 40

/-- The longest frame body, in either direction (R192). -/
def maxBody : Nat := 1024

/-- The period of a rack's polls (R98). -/
def Config.pollPeriod : Millis := 100

/-- The no-answer limit of a dock transaction, and of a BLOCK_ERASE (R158). -/
def Config.noAnswer : Millis := 300
def Config.noAnswerErase : Millis := 1000

/-- Bytes of a unit page and of an erase block (spec 00 section 2.5). -/
def Config.pageBytes : Nat := 256
def Config.blockBytes : Nat := 4096

/-- Pages of an image region (spec 12 section 12.1). -/
def Config.imagePages : Nat := 800

/-- Downlink stream slots (R44), ascending. -/
def Config.downSlots : List Nat := (List.range 14).map (· + 1)

/-- The first uplink voice slot (R44). -/
def Config.firstUplink : Nat := 15

end Sys2Proof
end

