-- ==== Sys2Proof/Machine/State.lean ====
section
/-! DEFINITION. The state of the part as plain data: one structure per record of the manual, gathered
into `Part` (every block behind the link port), `Link` (the link port), `Nv` (the nonvolatile store)
and the queue of pending commands; the outcomes that stop a step; and the state after reset. -/

namespace Sys2Proof.Machine

/-! ### Outcomes -/

/-- Faults. NONE: no rule of the manual stops the part (a refused command is answered, a discarded
message changes nothing, a bay fault is recorded state), so no command raises one. -/
inductive Fault where
deriving DecidableEq, Repr

/-- Refusals. `notModelled` is for an arm of `exec` without a meaning (safe: the model stops); every
arm has its meaning, so no command raises it. -/
inductive Refusal where
  | notModelled (mnemonic : String)
deriving DecidableEq, Repr

/-! ### The working profile (spec 12 section 12.2) -/

structure ZoneProfile where
  enable  : Bool
  label   : Text
  carrier : Nat
deriving DecidableEq, Repr

structure LangProfile where
  enable : Bool
  name   : Text
deriving DecidableEq, Repr

/-- The policy of one fault class (R126). -/
structure Policy where
  retireAfter : Nat
  recovery    : Recovery
deriving DecidableEq, Repr

/-- The profile. `langs` is also the language catalog, whose copy always follows it (R17; log 22).
`disabledKinds` is the complement of the report enable set, in the order of R199. -/
structure Profile where
  zones         : Vector ZoneProfile 8
  rackEnable    : Vector Bool 8
  langs         : Vector LangProfile 16
  policies      : Vector Policy 6
  silenceLimit  : Nat
  zoneMargin    : Nat
  zoneStale     : Nat
  linger        : Nat
  noticeLife    : Nat
  pickTime      : Nat
  issueLimit    : Nat
  readyLevel    : Nat
  topupLevel    : Nat
  hotLimit      : Nat
  voltLimit     : Nat
  chargeLimit   : Nat
  weakGain      : Nat
  weakWindow    : Nat
  strikeLimit   : Nat
  t1            : Nat
  t2            : Nat
  t3            : Nat
  t4            : Nat
  alarm         : Nat
  blinkRate     : Nat
  flashRate     : Nat
  pickRate      : Nat
  rampDelay     : Nat
  hold          : Nat
  autoRefresh   : Bool
  disabledKinds : List EventKind
deriving DecidableEq, Repr

/-- The defaults of the table of spec 12 section 12.2; the policies are those of R126. -/
def Profile.default : Profile where
  zones         := Vector.ofFn fun z => ⟨true, [], z.val⟩
  rackEnable    := Vector.replicate 8 true
  langs         := Vector.replicate 16 ⟨true, []⟩
  policies      := #v[⟨3, .onRemove⟩, ⟨1, .onClear⟩, ⟨0, .onRemove⟩, ⟨2, .onRemove⟩,
                      ⟨0, .onRemove⟩, ⟨2, .onRemove⟩]
  silenceLimit  := 30
  zoneMargin    := 6
  zoneStale     := 3
  linger        := 125
  noticeLife    := 10
  pickTime      := 20
  issueLimit    := 30
  readyLevel    := 90
  topupLevel    := 95
  hotLimit      := 450
  voltLimit     := 4300
  chargeLimit   := 240
  weakGain      := 5
  weakWindow    := 20
  strikeLimit   := 3
  t1            := 20
  t2            := 40
  t3            := 60
  t4            := 80
  alarm         := 10
  blinkRate     := 1
  flashRate     := 2
  pickRate      := 4
  rampDelay     := 50
  hold          := 4
  autoRefresh   := true
  disabledKinds := []

/-! ### Tours (spec 01) -/

inductive TourState where
  | free | forming | live | paused | closing
deriving DecidableEq, Repr

/-- A tour record (R1). `floor` is `none` where the manual writes 0. -/
structure Tour where
  state    : TourState
  label    : Text
  floor    : Option LangNo
  capacity : Nat
  count    : Nat
  sources  : List (LangNo × UnitId)
deriving DecidableEq, Repr

/-- The FREE record (R1, last column). -/
def Tour.free : Tour := ⟨.free, [], none, 0, 0, []⟩

/-! ### Units (spec 02) and notices (spec 04) -/

inductive EntryState where
  | docked | out | onAir | silent
deriving DecidableEq, Repr

inductive FwState where
  | complete | incomplete | unknown
deriving DecidableEq, Repr

inductive NoticeKind where
  | retune | untune | locate
deriving DecidableEq, Repr

/-- A pending notice (R72). `deadline` is the end of its life on the time base. -/
structure Notice where
  kind      : NoticeKind
  target    : Option Tune
  reserving : Bool
  seq       : BitVec 4
  deadline  : Millis
  raised    : Millis
deriving DecidableEq, Repr

/-- An entry of the unit table (R20). `silence` is the deadline of the running silence timer. -/
structure Entry where
  unit       : UnitId
  cls        : UnitClass
  state      : EntryState
  bay        : Option BayRef
  lastBay    : Option BayRef
  zone       : Option ZoneNo
  quality    : Nat
  lastHeard  : Millis
  level      : Nat
  assignment : Option Tune
  notice     : Option Notice
  nextSeq    : BitVec 4
  fwRevision : BitVec 16
  fwState    : FwState
  tuned      : Bool
  faults     : Vector Nat 6
  retired    : Bool
  silence    : Option Millis
deriving DecidableEq, Repr

/-! ### Zones (spec 03) -/

inductive ZoneState where
  | up | down | disabled
deriving DecidableEq, Repr

/-- A carriage (R54). -/
structure Carriage where
  stream      : CarrStream
  slot        : Option Nat
  count       : Nat
  linger      : Option Nat
  placedSince : Option Nat
  lastFrame   : Option Nat
deriving DecidableEq, Repr

inductive DirForm where
  | carried (slot : Nat)
  | fallback (slot : Nat)
  | uncarried
deriving DecidableEq, Repr

/-- A directory entry (R53). -/
structure DirEntry where
  stream : Tune
  form   : DirForm
deriving DecidableEq, Repr

/-- An item of the beacon's house section (R91); `isDefault` is the mark of the default track. -/
structure HouseItem where
  track     : TrackNo
  lang      : LangNo
  slot      : Option Nat
  isDefault : Bool
deriving DecidableEq, Repr

/-- A notice as a beacon carries it (R76). -/
structure BeaconNotice where
  unit   : UnitId
  kind   : NoticeKind
  seq    : BitVec 4
  target : Option Tune
deriving DecidableEq, Repr

/-- The beacon of slot 0 (R52). -/
structure Beacon where
  zone      : ZoneNo
  cycle     : BitVec 16
  revision  : BitVec 8
  directory : List DirEntry
  uplinkMap : List (Nat × UnitId)
  closing   : List TourNo
  house     : List HouseItem
  notices   : List BeaconNotice
deriving DecidableEq, Repr

/-- What a downlink slot carries in a cycle (R62, R94). -/
inductive SlotFrame where
  | voice (audio : Audio)
  | house (audio : Audio)
  | silence
deriving DecidableEq, Repr

/-- A published plan, which is also the content of the CYCLE_PLAN that carried it (R46, R50). -/
structure Plan where
  holders : List (Nat × CarrStream)
  beacon  : Beacon
  audio   : List (Nat × SlotFrame)
deriving DecidableEq, Repr

/-- The messages the part sends on a zone port (R46). -/
inductive ZoneMessage where
  | zoneSetup (zone : ZoneNo) (label : Text) (carrier : Nat)
  | cyclePlan (plan : Plan)
deriving DecidableEq, Repr

/-- A zone record (R45), with its overflow list (R74) and the message last sent on its port. The
working plan's downlink holders are the slot fields of `carriages`, its uplink holders are `uplink`
(slots 15 to 21). -/
structure Zone where
  state         : ZoneState
  downTimer     : Option Millis
  cycleNumber   : BitVec 16
  cycleCount    : Nat
  carriages     : List Carriage
  waitQueue     : List CarrStream
  uplink        : Vector (Option UnitId) 7
  uplinkQueue   : List (UnitId × Bool)
  plan          : Option Plan
  lastDirectory : List DirEntry
  revision      : BitVec 8
  noticeQueue   : List UnitId
  overflow      : List UnitId
  closingSet    : List TourNo
  soundingSet   : List Tune
  peakSlots     : Nat
  peakWaiting   : Nat
  sent          : Option ZoneMessage
deriving DecidableEq, Repr

/-- The zone record after a full reset (R45, last column). -/
def Zone.initial (state : ZoneState) : Zone where
  state         := state
  downTimer     := none
  cycleNumber   := 0
  cycleCount    := 0
  carriages     := []
  waitQueue     := []
  uplink        := Vector.replicate 7 none
  uplinkQueue   := []
  plan          := none
  lastDirectory := []
  revision      := 0
  noticeQueue   := []
  overflow      := []
  closingSet    := []
  soundingSet   := []
  peakSlots     := 0
  peakWaiting   := 0
  sent          := none

/-- The current frame of a stream (R61). -/
structure Frame where
  stream : Tune
  audio  : Audio
  serial : BitVec 32
deriving DecidableEq, Repr

/-- The frame store (R61); `next` is the next filing serial. -/
structure FrameStore where
  frames : List Frame
  next   : BitVec 32
deriving DecidableEq, Repr

/-! ### House programs (spec 05) -/

/-- A track record (R86). -/
structure Track where
  lang     : LangNo
  buffer   : List Audio
  current  : Option Audio
  serial   : BitVec 16
  received : Nat
  replaced : Nat
  starved  : Nat
deriving DecidableEq, Repr

/-- The program record (R86). `zones` ascending; `period` is the next elapse of the period timer. -/
structure House where
  running    : Bool
  zones      : List ZoneNo
  tracks     : List Track
  advanceDue : Bool
  period     : Option Millis
deriving DecidableEq, Repr

/-- The IDLE record (R86, last column). -/
def House.idle : House := ⟨false, [], [], false, none⟩

/-! ### Jobs and channels (spec 09) -/

inductive JobKind where
  | identify | tune | refresh | maintRead | maintWrite | maintErase
deriving DecidableEq, Repr

/-- A job's kind with its parameters (R149). `tune none` is an untune. -/
inductive JobWork where
  | identify
  | tune (t : Option Tune)
  | refresh (slot : UnitClass)
  | maintRead (area : Area) (addr count : Nat)
  | maintWrite (area : Area) (addr : Nat) (data : List Byte)
  | maintErase (area : Area) (addr count : Nat)
deriving DecidableEq, Repr

inductive FailReason where
  | unitMute | notBlank | verifyFail | refused | wrongUnit | badIdent | imageMisfit | violation
deriving DecidableEq, Repr

inductive AbortReason where
  | unseat | rackLost | faultAbort | stopped | cancelled | issueEnded | format
deriving DecidableEq, Repr

inductive JobResult where
  | done
  | failed (r : FailReason)
  | aborted (r : AbortReason)
deriving DecidableEq, Repr

inductive Phase where
  | ident | erase | program | check | commit | read | write
deriving DecidableEq, Repr

/-- The ident record (R159). -/
structure Ident where
  unit      : UnitId
  cls       : Byte
  hardware  : Byte
  fw        : BitVec 16
  fwState   : Byte
  bootPages : Nat
  fwBase    : Nat
  fwPages   : Nat
  tunePage  : Nat
  tuneTour  : Nat
  tuneLang  : Nat
  tuneRev   : BitVec 16
deriving DecidableEq, Repr

/-- A job record (R149). Its state and channel are the place it stands in: the queue, or a channel's
active or parked place. `erased` counts the blocks a REFRESH has erased; `ident` is kept from its
IDENT phase to its end (R160). -/
structure Job where
  number   : Nat
  work     : JobWork
  bay      : BayRef
  unit     : UnitId
  phase    : Option Phase
  progress : Nat
  total    : Nat
  erased   : Nat
  started  : Option Millis
  ident    : Option Ident
deriving DecidableEq, Repr

/-- A dock transaction's kind with the data it sends (R157). -/
inductive Dock where
  | identRead
  | pageRead
  | pageProgram (data : List Byte)
  | blockErase
  | areaCheck (pages : Nat)
  | tuneWrite (tour lang : Nat) (rev : BitVec 16)
  | commit (rev : BitVec 16)
deriving DecidableEq, Repr

/-- Where a transaction's request stands: on the bus master's list, in the turn in progress, or gone
out with its no-answer limit (R100, R158). -/
inductive TxStatus where
  | waiting
  | inTurn
  | out (deadline : Millis)
deriving DecidableEq, Repr

/-- The outstanding transaction of a channel (R153). -/
structure Transaction where
  dock     : Dock
  addr     : Option Nat
  serial   : Byte
  attempts : Nat
  status   : TxStatus
deriving DecidableEq, Repr

/-- A staging page with its origin (R153). -/
structure Staging where
  data : List Byte
  job  : Nat
  kind : JobKind
  addr : Nat
deriving DecidableEq, Repr

inductive ViolationKind where
  | bootArea | misaligned | outOfArea
deriving DecidableEq, Repr

structure Violation where
  kind : ViolationKind
  addr : Nat
  job  : Nat
deriving DecidableEq, Repr

inductive ChannelState where
  | idle | running | yielding | locked
deriving DecidableEq, Repr

/-- A channel record (R153). -/
structure Channel where
  state     : ChannelState
  active    : Option Job
  parked    : Option Job
  tx        : Option Transaction
  serial    : Byte
  staging   : Option Staging
  violation : Option Violation
deriving DecidableEq, Repr

/-- The channel after a full reset (R153, last column). -/
def Channel.initial : Channel := ⟨.idle, none, none, none, 0, none, none⟩

/-- An image slot header (R173); `written` is the written map while LOADING, ascending. -/
inductive ImageHeader where
  | empty
  | loading (revision pages : Nat) (checksum : BitVec 32) (written : List Nat)
  | sealed (revision pages : Nat) (checksum : BitVec 32)
deriving DecidableEq, Repr

/-! ### Bays and racks (spec 06, 07, 08) -/

inductive Session where
  | none | charging | topped | halted
deriving DecidableEq, Repr

structure Telemetry where
  mv    : Nat
  ma    : Int
  temp  : Int
  level : Nat
deriving DecidableEq, Repr

/-- The unit recorded in a bay, listed or unlisted (R106). -/
structure Occupant where
  unit   : UnitId
  listed : Bool
deriving DecidableEq, Repr

/-- A fault record (R122). `classes` in the order of classes; `listed` tells whether its unit was a
listed occupant, which FAULT_READ shows (R132). -/
structure FaultRecord where
  classes     : List FaultClass
  recovery    : Recovery
  unit        : UnitId
  listed      : Bool
  raised      : Millis
  occurrences : Nat
deriving DecidableEq, Repr

/-- The WEAKCELL test of the session; the window in minutes is present while PENDING (R122). -/
inductive WeakCheck where
  | pending (window : Nat)
  | done
deriving DecidableEq, Repr

inductive DisplayMode where
  | pick | fault | retired | chargeAlarm | charging | show | dark
deriving DecidableEq, Repr

/-- A display (spec 08 section 8.1). -/
structure Display where
  mode  : DisplayMode
  count : Nat
deriving DecidableEq, Repr

/-- A pending order of a bay; `carried` marks the one the POLL in progress carries, so that a newer
one set during the turn stays pending (R101). -/
structure Order (α : Type) where
  value   : α
  carried : Bool
deriving DecidableEq, Repr

/-- The last job of a bay (R150). -/
structure LastJob where
  number : Nat
  kind   : JobKind
  result : JobResult
deriving DecidableEq, Repr

/-- A bay record: R106, with the fault supervisor's items (R122), the engine's (R150), the indicator
record (R139) and the bay's pending orders (R98). -/
structure Bay where
  enable       : Bool
  occupant     : Option Occupant
  session      : Session
  sessionStart : Option Millis
  startLevel   : Option Nat
  bounces      : Nat
  telemetry    : Option Telemetry
  identified   : Bool
  fault        : Option FaultRecord
  strikes      : Nat
  release      : Bool
  watch        : Option Millis
  weak         : WeakCheck
  job          : Option Nat
  needUntune   : Bool
  needRefresh  : Bool
  identifyOwed : Bool
  refreshHold  : Bool
  lastJob      : Option LastJob
  pickMark     : Bool
  display      : Display
  ordered      : Display
  chargeOrder  : Option (Order Bool)
  displayOrder : Option (Order Display)
deriving DecidableEq, Repr

/-- DARK, 0. -/
def Display.off : Display := ⟨.dark, 0⟩

/-- The bay after a full reset (R106, R122, R139, R150, last columns). -/
def Bay.initial : Bay where
  enable       := true
  occupant     := none
  session      := .none
  sessionStart := none
  startLevel   := none
  bounces      := 0
  telemetry    := none
  identified   := false
  fault        := none
  strikes      := 0
  release      := false
  watch        := none
  weak         := .done
  job          := none
  needUntune   := false
  needRefresh  := false
  identifyOwed := false
  refreshHold  := false
  lastJob      := none
  pickMark     := false
  display      := .off
  ordered      := .off
  chargeOrder  := none
  displayOrder := none

inductive RackState where
  | disabled | offline | attaching | online
deriving DecidableEq, Repr

inductive AttachStep where
  | setup | survey
deriving DecidableEq, Repr

/-- The show state with its ramp step and its running timer's deadline (R145). -/
inductive ShowState where
  | idle
  | ramp (step : Nat) (deadline : Millis)
  | hold (deadline : Millis)
deriving DecidableEq, Repr

/-- A rack record (R98) with its bays. `pollTimer` is the next elapse; `pollDue` holds the time poll
due was set. -/
structure Rack where
  state        : RackState
  step         : Option AttachStep
  offered      : Option Nat
  bayCount     : Option Nat
  revision     : Option Nat
  pollTimer    : Option Millis
  pollDue      : Option Millis
  missed       : Nat
  setupOrder   : Option (Order Unit)
  ready        : List BayNo
  showState    : ShowState
  bays         : Vector Bay 24
deriving DecidableEq, Repr

/-- The rack after a full reset (R98, last column). -/
def Rack.initial (state : RackState) (pollTimer : Option Millis) : Rack where
  state      := state
  step       := none
  offered    := none
  bayCount   := none
  revision   := none
  pollTimer  := pollTimer
  pollDue    := none
  missed     := 0
  setupOrder := none
  ready      := []
  showState  := .idle
  bays       := Vector.replicate 24 Bay.initial

/-- The content of RACK_SETUP (R99, R142). -/
structure RackSetup where
  voltLimit : Nat
  blinkRate : Nat
  flashRate : Nat
  pickRate  : Nat
deriving DecidableEq, Repr

/-- The message a rack's poll turn sends (R99, R101). -/
inductive PollMessage where
  | attach
  | rackSetup (s : RackSetup)
  | survey
  | poll (charge : List (BayNo × Bool)) (displays : List (BayNo × Display)) (setup : Option RackSetup)
deriving DecidableEq, Repr

/-- The turn the bus master has given (R99, R100). -/
inductive Turn where
  | poll (rack : RackNo) (message : PollMessage)
  | dock (channel : ChannelNo) (bay : BayRef) (serial : Byte) (addr : Option Nat) (dock : Dock)
deriving DecidableEq, Repr

/-- The bus master (R100): the turn in progress with its beginning, and the channel last served. -/
structure Bus where
  turn       : Option (Turn × Millis)
  lastServed : ChannelNo
deriving DecidableEq, Repr

/-! ### Issue records (spec 10) -/

inductive IssueState where
  | free | tuning | picking | taken | expired | failed | cancelled
deriving DecidableEq, Repr

inductive IssueReason where
  | timeout | removedEarly | fault | rackLost | retired | job
deriving DecidableEq, Repr

/-- An issue record (R177). `limit` and `pick` are the deadlines of its running timers. -/
structure Issue where
  state    : IssueState
  reason   : Option IssueReason
  cls      : Option UnitClass
  unit     : Option UnitId
  bay      : Option BayRef
  tune     : Option Tune
  job      : Option (Nat × Option JobResult)
  tuned    : Bool
  wrongBay : Option BayRef
  issuedAt : Option Millis
  pickAt   : Option Millis
  endAt    : Option Millis
  limit    : Option Millis
  pick     : Option Millis
deriving DecidableEq, Repr

/-- The FREE record (R177, last column). -/
def Issue.free : Issue :=
  ⟨.free, none, none, none, none, none, none, false, none, none, none, none, none, none⟩

/-! ### The settings store (spec 12) -/

/-- What a region erase serves (R200). -/
inductive EraseFor where
  | imageBegin (slot : UnitClass)
  | format
deriving DecidableEq, Repr

/-- The operation a BUSY store engine performs (R200), with what it writes. -/
inductive StoreOp where
  | profileSave (record : Profile)
  | retireSave (ids : List UnitId)
  | regionErase (target : EraseFor)
  | pageWrite (slot : UnitClass) (page : Nat) (data : List Byte)
  | headerWrite (slot : UnitClass) (header : ImageHeader) (mismatch : Option (BitVec 32))
deriving DecidableEq, Repr

inductive ResetCause where
  | powerOn | resetLine | restart
deriving DecidableEq, Repr

/-- The outcome of loading the profile or the retire list (R204). -/
inductive LoadOutcome where
  | loaded | blank | checkFailed
deriving DecidableEq, Repr

/-- The store engine and the start-up items (R200, R201, R204, R205). -/
structure Engine where
  op             : Option StoreOp
  retireDirty    : Bool
  corrected      : Bool
  loading        : Bool
  cause          : ResetCause
  profileOutcome : LoadOutcome
  retireOutcome  : LoadOutcome
  straps         : Straps
  baud           : Nat
deriving DecidableEq, Repr

/-- A stored record: its region erased, a record, or a record that fails its check (R204). -/
inductive Stored (α : Type) where
  | erased
  | record (a : α)
  | failsCheck
deriving DecidableEq, Repr

/-- A 64-bit word of the store (R201). -/
inductive StoreWord where
  | profile (n : Nat)
  | retire (n : Nat)
  | header (slot : UnitClass) (n : Nat)
  | image (slot : UnitClass) (page n : Nat)
deriving DecidableEq, Repr

/-- A word whose stored bits differ from what was written, in the bits of the mask (R201; log 18). -/
structure Upset where
  word : StoreWord
  mask : BitVec 64
deriving DecidableEq, Repr

/-- Byte memory of an image region: listed bytes in rising address order, an unlisted byte reads as
erased. -/
abbrev Memory := List Host.Cell

/-- The nonvolatile store (spec 12 section 12.1). -/
structure Nv where
  profile        : Stored Profile
  retire         : Stored (List UnitId)
  listenerHeader : Stored ImageHeader
  voiceHeader    : Stored ImageHeader
  listenerImage  : Memory
  voiceImage     : Memory
  upsets         : List Upset
deriving DecidableEq, Repr

/-- A blank store (log 7). -/
def Nv.blank : Nv := ⟨.erased, .erased, .erased, .erased, [], [], []⟩

/-! ### Replies, reports and the link port (spec 11) -/

inductive ResultWord where
  | ok | busy | badArg | noSuch | full | state | storeBusy | inUse | locked
deriving DecidableEq, Repr

/-- Data fields of a reply or a report, in order, as name and value. -/
abbrev Fields := List (Text × Text)

inductive Source where
  | system
  | channel (c : ChannelNo)
  | issue (n : IssueNo)
  | rack (r : RackNo)
  | bay (b : BayRef)
  | zone (z : ZoneNo)
  | tour (t : TourNo)
  | image (s : UnitClass)
  | unit (index : Nat)
deriving DecidableEq, Repr

/-- How a notice that raises an event ended (R85). -/
structure NoticeEnd where
  event        : EventKind
  kind         : NoticeKind
  seq          : BitVec 4
  acknowledged : Bool
deriving DecidableEq, Repr

/-- The fields owning chapters attach to event kinds (R197): R43 evicted and from, R85 ended (newest
first, one per kind), R121 offered, left and came, R148 presses, R138 newfaults and listfull. -/
structure Attached where
  evicted   : Option UnitId
  strayFrom : Option BayRef
  ended     : List NoticeEnd
  offered   : Option Nat
  presses   : Nat
  newFaults : List FaultClass
  leftUnit  : Option UnitId
  cameUnit  : Option UnitId
  listFull  : Option UnitId
deriving DecidableEq, Repr

def Attached.none : Attached :=
  ⟨Option.none, Option.none, [], Option.none, 0, [], Option.none, Option.none, Option.none⟩

/-- A pending report (R197): its source, its event list in the order of first raising, and the
attached fields. -/
structure PendingReport where
  source   : Source
  kinds    : List EventKind
  attached : Attached
deriving DecidableEq, Repr

/-- A reply ready to be sent: the outstanding command's, or a BUSY reply (R195, R196). -/
structure Reply where
  outstanding : Bool
  tag         : Byte
  verb        : Text
  result      : ResultWord
  fields      : Fields
deriving DecidableEq, Repr

/-- A report taken by the arbiter (R198). `final` is the issue record it shows, when the record was in
a final state as it was taken (R188). -/
structure Report where
  source : Source
  kinds  : List EventKind
  fields : Fields
  final  : Option Issue
deriving DecidableEq, Repr

/-- The frame the outbound serializer is sending (R196). -/
inductive OutFrame where
  | reply (r : Reply)
  | report (r : Report)
deriving DecidableEq, Repr

/-- The receive framer (R191); IN_FRAME holds the bytes collected after the start byte. -/
inductive Framer where
  | hunting
  | inFrame (bytes : List Byte)
deriving DecidableEq, Repr

/-- The outstanding command (R195). `resetAfter` marks a RESTART answered OK (R204). -/
structure Slot where
  tag        : Byte
  verb       : Text
  resetAfter : Bool
deriving DecidableEq, Repr

/-- The link port (spec 11), apart from the pending set. -/
structure Link where
  framer : Framer
  slot   : Option Slot
  ready  : List Reply
  line   : Option OutFrame
deriving DecidableEq, Repr

/-- The link port after a full reset (R191, R195, R196). -/
def Link.initial : Link := ⟨.hunting, none, [], none⟩

/-! ### The whole part -/

/-- Every block behind the link port. `units` lists the occupied places in rising index order;
`reports` the pending set in natural order; `lastJobNumber` is the number most recently given, 0
before the first. -/
structure Part where
  now           : Millis
  freeCount     : Nat
  profile       : Profile
  tours         : Vector Tour 32
  units         : List (Nat × Entry)
  zones         : Vector Zone 8
  frames        : FrameStore
  house         : House
  racks         : Vector Rack 8
  bus           : Bus
  retireList    : List UnitId
  queue         : List Job
  lastJobNumber : Nat
  peakQueue     : Nat
  channels      : Vector Channel 4
  listenerSlot  : ImageHeader
  voiceSlot     : ImageHeader
  issues        : Vector Issue 16
  store         : Engine
  reports       : List PendingReport
deriving DecidableEq, Repr

/-- The part right after a full reset, with the start-up load in progress (R204): volatile state at
its reset values; zones, racks, profile, retire list and headers take what the load brings at its
end. -/
def Part.initial (cause : ResetCause) (straps : Straps) (baud : Nat) (freeCount : Nat) : Part where
  now           := 0
  freeCount     := freeCount
  profile       := Profile.default
  tours         := Vector.replicate 32 Tour.free
  units         := []
  zones         := Vector.replicate 8 (Zone.initial .down)
  frames        := ⟨[], 0⟩
  house         := House.idle
  racks         := Vector.replicate 8 (Rack.initial .offline none)
  bus           := ⟨none, 3⟩
  retireList    := []
  queue         := []
  lastJobNumber := 0
  peakQueue     := 0
  channels      := Vector.replicate 4 Channel.initial
  listenerSlot  := .empty
  voiceSlot     := .empty
  issues        := Vector.replicate 16 Issue.free
  store         := ⟨none, false, false, true, cause, .blank, .blank, straps, baud⟩
  reports       := []

end Sys2Proof.Machine

namespace Sys2Proof.Machine

/-- The machine: the link port, the blocks behind it, the nonvolatile store, and the commands waiting,
first in, first out. -/
structure State where
  link    : Link
  part    : Part
  nv      : Nv
  pending : List Instr
deriving DecidableEq, Repr

/-- The machine right after reset: a power-on of a part with a blank store and both straps low, its
start-up load in progress (R204; log 7, 8, 20). -/
def State.reset : State where
  link    := Link.initial
  part    := Part.initial .powerOn ⟨false, false⟩ 115200 0
  nv      := Nv.blank
  pending := []

end Sys2Proof.Machine
end

