-- ==== Sys2Proof/Machine/Ops.lean ====
section
/-! DEFINITION. The named operations over the records of the part and over memory: accessors of the
tables, the byte memory of an image region, the unit table's places, the raising of report events,
and the moment a timer runs out. -/

namespace Sys2Proof.Machine

/-! ### Accessors -/

def Part.tour (p : Part) (t : TourNo) : Tour := p.tours[t]
def Part.setTour (p : Part) (t : TourNo) (x : Tour) : Part := { p with tours := p.tours.set t x }
def Part.modTour (p : Part) (t : TourNo) (f : Tour → Tour) : Part := p.setTour t (f (p.tour t))

def Part.zone (p : Part) (z : ZoneNo) : Zone := p.zones[z]
def Part.setZone (p : Part) (z : ZoneNo) (x : Zone) : Part := { p with zones := p.zones.set z x }
def Part.modZone (p : Part) (z : ZoneNo) (f : Zone → Zone) : Part := p.setZone z (f (p.zone z))

def Part.rack (p : Part) (r : RackNo) : Rack := p.racks[r]
def Part.setRack (p : Part) (r : RackNo) (x : Rack) : Part := { p with racks := p.racks.set r x }
def Part.modRack (p : Part) (r : RackNo) (f : Rack → Rack) : Part := p.setRack r (f (p.rack r))

def Rack.bay (k : Rack) (b : BayNo) : Bay := k.bays[b]
def Rack.setBay (k : Rack) (b : BayNo) (x : Bay) : Rack := { k with bays := k.bays.set b x }

def Part.bay (p : Part) (b : BayRef) : Bay := (p.rack b.rack).bay b.no
def Part.setBay (p : Part) (b : BayRef) (x : Bay) : Part := p.modRack b.rack (·.setBay b.no x)
def Part.modBay (p : Part) (b : BayRef) (f : Bay → Bay) : Part := p.setBay b (f (p.bay b))

def Part.channel (p : Part) (c : ChannelNo) : Channel := p.channels[c]
def Part.setChannel (p : Part) (c : ChannelNo) (x : Channel) : Part :=
  { p with channels := p.channels.set c x }
def Part.modChannel (p : Part) (c : ChannelNo) (f : Channel → Channel) : Part :=
  p.setChannel c (f (p.channel c))

def Part.issue (p : Part) (n : IssueNo) : Issue := p.issues[n]
def Part.setIssue (p : Part) (n : IssueNo) (x : Issue) : Part := { p with issues := p.issues.set n x }
def Part.modIssue (p : Part) (n : IssueNo) (f : Issue → Issue) : Part := p.setIssue n (f (p.issue n))

/-- The header of an image slot (R173). -/
def Part.slot (p : Part) : UnitClass → ImageHeader
  | .listener => p.listenerSlot
  | .voice => p.voiceSlot

def Part.setSlot (p : Part) (c : UnitClass) (h : ImageHeader) : Part :=
  match c with
  | .listener => { p with listenerSlot := h }
  | .voice => { p with voiceSlot := h }

/-- The enable of a language in the catalog (R17). -/
def Part.langEnabled (p : Part) (l : LangNo) : Bool := p.profile.langs[l].enable

/-- Place of a fault class in the order of classes (R20). -/
def faultIdx : FaultClass → Fin 6
  | .hot => 0 | .overvolt => 1 | .slow => 2 | .weakcell => 3 | .contact => 4 | .mute => 5

/-- The classes in their order (R20, R132). -/
def allFaultClasses : List FaultClass := [.hot, .overvolt, .slow, .weakcell, .contact, .mute]

/-- The policy of a class (R126). -/
def Profile.policy (f : Profile) (c : FaultClass) : Policy := f.policies[faultIdx c]

/-- The present time less a moment, in whole seconds, as the replies show ages. -/
def Part.ageSeconds (p : Part) (t : Millis) : Nat := (p.now - t) / 1000

/-- A free value is used once: the counter moves on (log 16, 17). -/
def Part.stepFree (p : Part) : Part := { p with freeCount := p.freeCount + 1 }

/-- The moment a running timer with deadline `d` runs out: the time base has reached `d` (log 2). -/
def Part.reach (p : Part) (d : Millis) : Part := { p with now := max p.now d }

/-! ### Byte memory of an image region -/

/-- What an erased, unwritten byte reads as (R173). -/
def Memory.erasedByte : Byte := 0xFF#8

/-- Bytes of an image region (spec 12 section 12.1). -/
def Memory.size : Nat := Config.imagePages * Config.pageBytes

/-- The byte at an address. -/
def Memory.read : Memory → Nat → Byte
  | [], _ => Memory.erasedByte
  | (b, w) :: m, a => if b = a then w else Memory.read m a

/-- Storing one byte in the canonical form: storing the erased byte unlists the address. -/
def Memory.write : Memory → Nat → Byte → Memory
  | [], a, v => if v = Memory.erasedByte then [] else [(a, v)]
  | (b, w) :: m, a, v =>
    if a < b then (if v = Memory.erasedByte then (b, w) :: m else (a, v) :: (b, w) :: m)
    else if a = b then (if v = Memory.erasedByte then m else (a, v) :: m)
    else (b, w) :: Memory.write m a v

/-- Storing a run of bytes from an address upward. -/
def Memory.writeBytes : Memory → Nat → List Byte → Memory
  | m, _, [] => m
  | m, a, v :: vs => Memory.writeBytes (Memory.write m a v) (a + 1) vs

/-- The bytes of page `n`. -/
def Memory.page (m : Memory) (n : Nat) : List Byte :=
  (List.range Config.pageBytes).map fun i => m.read (n * Config.pageBytes + i)

/-- Writing page `n` (R174): as many bytes as a page has. -/
def Memory.writePage (m : Memory) (n : Nat) (data : List Byte) : Memory :=
  if n < Config.imagePages then m.writeBytes (n * Config.pageBytes) (data.take Config.pageBytes) else m

/-- Addresses strictly rising from at least `lo`, inside the region, and no entry equal to the erased
byte. -/
def Memory.wfFrom : Nat → Memory → Bool
  | _, [] => true
  | lo, (a, v) :: m =>
    decide (lo ≤ a) && decide (a < Memory.size) && decide (v ≠ Memory.erasedByte) && Memory.wfFrom (a + 1) m

/-- The canonical form of a region's memory. -/
def Memory.wf (m : Memory) : Bool := Memory.wfFrom 0 m

/-- The image region of a slot. -/
def Nv.image (n : Nv) : UnitClass → Memory
  | .listener => n.listenerImage
  | .voice => n.voiceImage

def Nv.setImage (n : Nv) (c : UnitClass) (m : Memory) : Nv :=
  match c with
  | .listener => { n with listenerImage := m }
  | .voice => { n with voiceImage := m }

def Nv.setHeader (n : Nv) (c : UnitClass) (h : Stored ImageHeader) : Nv :=
  match c with
  | .listener => { n with listenerHeader := h }
  | .voice => { n with voiceHeader := h }

/-! ### The unit table (R20, R22) -/

/-- The place and entry of a unit. -/
def Part.find (p : Part) (u : UnitId) : Option (Nat × Entry) := p.units.find? (·.2.unit == u)

/-- The entry of a unit. -/
def Part.entry (p : Part) (u : UnitId) : Option Entry := (p.find u).map (·.2)

/-- The entry at a table index, if the place is occupied. -/
def Part.place (p : Part) (i : Nat) : Option Entry := (p.units.find? (·.1 == i)).map (·.2)

/-- Changing the entry of a unit. -/
def Part.modEntry (p : Part) (u : UnitId) (f : Entry → Entry) : Part :=
  { p with units := p.units.map fun x => if x.2.unit = u then (x.1, f x.2) else x }

/-- The lowest index from `k` on that a table in rising order does not list. -/
def lowestFreeFrom : Nat → List (Nat × Entry) → Nat
  | k, [] => k
  | k, (i, _) :: l => if i = k then lowestFreeFrom (k + 1) l else k

/-- The lowest-numbered free place, if the table has one (R22). -/
def Part.freePlace (p : Part) : Option Nat :=
  let k := lowestFreeFrom 0 p.units
  if k < Config.tableSize then some k else none

/-- Listing an entry at its index, the table in rising order. -/
def insertEntry (i : Nat) (e : Entry) : List (Nat × Entry) → List (Nat × Entry)
  | [] => [(i, e)]
  | (j, d) :: l =>
    if i < j then (i, e) :: (j, d) :: l
    else if i = j then (i, e) :: l
    else (j, d) :: insertEntry i e l

def Part.addEntry (p : Part) (i : Nat) (e : Entry) : Part :=
  { p with units := insertEntry i e p.units }

/-- Freeing the place of a unit. -/
def Part.removeEntry (p : Part) (u : UnitId) : Part :=
  { p with units := p.units.filter (·.2.unit != u) }

/-- The bay that records a unit as its unlisted occupant, if one does (R25, R27). -/
def Part.unlistedIn (p : Part) (u : UnitId) : Bool :=
  allBays.any fun b => (p.bay b).occupant == some ⟨u, false⟩

/-! ### Report events (R197) -/

/-- Kinds that make a pending report urgent (R197). -/
def urgentKind : EventKind → Bool
  | .start | .fault | .retired | .violation | .zoneDown | .rackOffline | .retireListFull
  | .tableFull | .expired | .failed => true
  | _ => false

/-- Every event kind, in the order of the table of R199. -/
def allKinds : List EventKind :=
  [.start, .house, .starved, .retireListFull, .violation, .parked, .stopped,
   .issued, .picking, .wrongBay, .taken, .expired, .failed, .cancelled,
   .rackOnline, .rackOffline, .rackRejected, .buttonPressed,
   .seated, .unseated, .topped, .bayDisabled, .bayEnabled, .tableFull, .fault, .faultCleared,
   .jobDone, .jobFailed, .jobAborted, .zoneUp, .zoneDown, .crowded, .state, .sources, .slotState,
   .found, .stray, .adopted, .silent, .evicted, .retired, .retuned, .untuned, .located,
   .noticeTimeout]

/-- The natural order of the report sources (R197). -/
def Source.rank : Source → Nat
  | .system => 0
  | .channel c => 1 + c.val
  | .issue n => 5 + n.val
  | .rack r => 21 + r.val
  | .bay b => 29 + 24 * b.rack.val + b.no.val
  | .zone z => 221 + z.val
  | .tour t => 229 + t.val
  | .image .listener => 261
  | .image .voice => 262
  | .unit i => 263 + i

/-- Adding a kind to a source's pending report, or creating it, the set in natural order; the attached
fields are updated at each raising (R197). -/
def addReport (src : Source) (k : EventKind) (att : Attached → Attached) :
    List PendingReport → List PendingReport
  | [] => [⟨src, [k], att Attached.none⟩]
  | r :: rs =>
    if r.source = src then
      ⟨src, if r.kinds.contains k then r.kinds else r.kinds ++ [k], att r.attached⟩ :: rs
    else if src.rank < r.source.rank then ⟨src, [k], att Attached.none⟩ :: r :: rs
    else r :: addReport src k att rs

/-- Raising an event kind on a source, with the fields its chapter attaches; a disabled kind is not
accumulated (R197). -/
def Part.raiseWith (p : Part) (src : Source) (k : EventKind) (att : Attached → Attached) : Part :=
  if p.profile.disabledKinds.contains k then p
  else { p with reports := addReport src k att p.reports }

def Part.raise (p : Part) (src : Source) (k : EventKind) : Part := p.raiseWith src k id

/-- Raising on the UNIT source of a unit's table index (R43). -/
def Part.raiseUnit (p : Part) (u : UnitId) (k : EventKind) (att : Attached → Attached) : Part :=
  match p.find u with
  | some (i, _) => p.raiseWith (.unit i) k att
  | none => p

end Sys2Proof.Machine
end

