-- ==== Sys2Proof/Machine/Text.lean ====
section
/-! DEFINITION. The texts replies and reports are written in: numbers, identifiers, and the word for
each name of the manual (R194, R198, R199). Hexadecimal is written in upper case and a bay with two
digits (log 14). -/

namespace Sys2Proof.Machine

/-- A word given as a literal. -/
def txt (s : String) : Text := s.toList

/-- Decimal digits of a number. -/
def numText (n : Nat) : Text := Nat.toDigits 10 n

/-- A hexadecimal digit. -/
def hexDigit (n : Nat) : Char := (txt "0123456789ABCDEF").getD n '0'

/-- `k` hexadecimal digits of a number, the most significant first. -/
def hexFixed : Nat → Nat → Text
  | 0, _ => []
  | k + 1, n => hexFixed k (n / 16) ++ [hexDigit (n % 16)]

/-- A number in hexadecimal, without leading zeros (log 14). -/
def hexText (n : Nat) : Text :=
  match (hexFixed 8 n).dropWhile (· == '0') with
  | [] => ['0']
  | t => t

/-- A unit id or a 32-bit check, as eight hexadecimal digits (spec 00 section 2.2). -/
def hex8 (u : BitVec 32) : Text := hexFixed 8 u.toNat

/-- Bytes as hexadecimal characters, two a byte. -/
def hexBytes (l : List Byte) : Text := l.flatMap fun b => hexFixed 2 b.toNat

/-- The mark of an absent value. -/
def dash : Text := ['-']

/-- A value, or the mark of an absent one. -/
def orDash {α : Type} (f : α → Text) : Option α → Text
  | some a => f a
  | none => dash

/-- Items joined by commas. -/
def commas (l : List Text) : Text := List.intercalate [','] l

/-- Items joined by commas, or the mark of none. -/
def commasOrDash (l : List Text) : Text := if l.isEmpty then dash else commas l

/-- 1 or 0. -/
def bit (b : Bool) : Text := if b then ['1'] else ['0']

/-- Parts joined by a colon. -/
def colons (l : List Text) : Text := List.intercalate [':'] l

/-- rack.bay (spec 00 section 2.1; log 14). -/
def bayText (b : BayRef) : Text :=
  let n := b.no.val + 1
  numText b.rack.val ++ ['.'] ++ (if n < 10 then '0' :: numText n else numText n)

/-- A label between double quotes (R194). -/
def labelText (t : Text) : Text := ['"'] ++ t ++ ['"']

def tourText (t : TourNo) : Text := numText (t.val + 1)
def langText (l : LangNo) : Text := numText (l.val + 1)

/-- tour:language. -/
def tuneText (t : Tune) : Text := colons [tourText t.tour, langText t.lang]

def classText : UnitClass → Text
  | .listener => txt "LISTENER"
  | .voice => txt "VOICE"

def faultText : FaultClass → Text
  | .hot => txt "HOT"
  | .overvolt => txt "OVERVOLT"
  | .slow => txt "SLOW"
  | .weakcell => txt "WEAKCELL"
  | .contact => txt "CONTACT"
  | .mute => txt "MUTE"

def recoveryText : Recovery → Text
  | .onRemove => txt "ON_REMOVE"
  | .onClear => txt "ON_CLEAR"

def resultText : ResultWord → Text
  | .ok => txt "OK"
  | .busy => txt "BUSY"
  | .badArg => txt "BADARG"
  | .noSuch => txt "NOSUCH"
  | .full => txt "FULL"
  | .state => txt "STATE"
  | .storeBusy => txt "STOREBUSY"
  | .inUse => txt "INUSE"
  | .locked => txt "LOCKED"

def tourStateText : TourState → Text
  | .free => txt "FREE"
  | .forming => txt "FORMING"
  | .live => txt "LIVE"
  | .paused => txt "PAUSED"
  | .closing => txt "CLOSING"

def entryStateText : EntryState → Text
  | .docked => txt "DOCKED"
  | .out => txt "OUT"
  | .onAir => txt "ON_AIR"
  | .silent => txt "SILENT"

def fwStateText : FwState → Text
  | .complete => txt "COMPLETE"
  | .incomplete => txt "INCOMPLETE"
  | .unknown => txt "UNKNOWN"

def noticeKindText : NoticeKind → Text
  | .retune => txt "RETUNE"
  | .untune => txt "UNTUNE"
  | .locate => txt "LOCATE"

def zoneStateText : ZoneState → Text
  | .up => txt "UP"
  | .down => txt "DOWN"
  | .disabled => txt "DISABLED"

def rackStateText : RackState → Text
  | .disabled => txt "DISABLED"
  | .offline => txt "OFFLINE"
  | .attaching => txt "ATTACHING"
  | .online => txt "ONLINE"

def attachStepText : AttachStep → Text
  | .setup => txt "SETUP"
  | .survey => txt "SURVEY"

/-- The show state, with the ramp step in RAMP (R148). -/
def showText : ShowState → Text
  | .idle => txt "IDLE"
  | .ramp n _ => txt "RAMP:" ++ numText n
  | .hold _ => txt "HOLD"

def sessionText : Session → Text
  | .none => txt "NONE"
  | .charging => txt "CHARGING"
  | .topped => txt "TOPPED"
  | .halted => txt "HALTED"

def displayModeText : DisplayMode → Text
  | .pick => txt "PICK"
  | .fault => txt "FAULT"
  | .retired => txt "RETIRED"
  | .chargeAlarm => txt "CHARGE_ALARM"
  | .charging => txt "CHARGING"
  | .show => txt "SHOW"
  | .dark => txt "DARK"

/-- mode:count (R148). -/
def displayText (d : Display) : Text := colons [displayModeText d.mode, numText d.count]

def jobKindText : JobKind → Text
  | .identify => txt "IDENTIFY"
  | .tune => txt "TUNE"
  | .refresh => txt "REFRESH"
  | .maintRead => txt "MAINT_READ"
  | .maintWrite => txt "MAINT_WRITE"
  | .maintErase => txt "MAINT_ERASE"

def failText : FailReason → Text
  | .unitMute => txt "UNIT_MUTE"
  | .notBlank => txt "NOT_BLANK"
  | .verifyFail => txt "VERIFY_FAIL"
  | .refused => txt "REFUSED"
  | .wrongUnit => txt "WRONG_UNIT"
  | .badIdent => txt "BAD_IDENT"
  | .imageMisfit => txt "IMAGE_MISFIT"
  | .violation => txt "VIOLATION"

def abortText : AbortReason → Text
  | .unseat => txt "UNSEAT"
  | .rackLost => txt "RACK_LOST"
  | .faultAbort => txt "FAULT_ABORT"
  | .stopped => txt "STOPPED"
  | .cancelled => txt "CANCELLED"
  | .issueEnded => txt "ISSUE_ENDED"
  | .format => txt "FORMAT"

/-- A result, with :reason for FAILED and ABORTED (R120). -/
def jobResultText : JobResult → Text
  | .done => txt "DONE"
  | .failed r => colons [txt "FAILED", failText r]
  | .aborted r => colons [txt "ABORTED", abortText r]

def phaseText : Phase → Text
  | .ident => txt "IDENT"
  | .erase => txt "ERASE"
  | .program => txt "PROGRAM"
  | .check => txt "CHECK"
  | .commit => txt "COMMIT"
  | .read => txt "READ"
  | .write => txt "WRITE"

def dockText : Dock → Text
  | .identRead => txt "IDENT_READ"
  | .pageRead => txt "PAGE_READ"
  | .pageProgram _ => txt "PAGE_PROGRAM"
  | .blockErase => txt "BLOCK_ERASE"
  | .areaCheck _ => txt "AREA_CHECK"
  | .tuneWrite _ _ _ => txt "TUNE_WRITE"
  | .commit _ => txt "COMMIT"

def channelStateText : ChannelState → Text
  | .idle => txt "IDLE"
  | .running => txt "RUNNING"
  | .yielding => txt "YIELDING"
  | .locked => txt "LOCKED"

def violationText : ViolationKind → Text
  | .bootArea => txt "BOOT_AREA"
  | .misaligned => txt "MISALIGNED"
  | .outOfArea => txt "OUT_OF_AREA"

def issueStateText : IssueState → Text
  | .free => txt "FREE"
  | .tuning => txt "TUNING"
  | .picking => txt "PICKING"
  | .taken => txt "TAKEN"
  | .expired => txt "EXPIRED"
  | .failed => txt "FAILED"
  | .cancelled => txt "CANCELLED"

def issueReasonText : IssueReason → Text
  | .timeout => txt "TIMEOUT"
  | .removedEarly => txt "REMOVED_EARLY"
  | .fault => txt "FAULT"
  | .rackLost => txt "RACK_LOST"
  | .retired => txt "RETIRED"
  | .job => txt "JOB"

def causeText : ResetCause → Text
  | .powerOn => txt "POWER_ON"
  | .resetLine => txt "RESET_LINE"
  | .restart => txt "RESTART"

def profileOutcomeText : LoadOutcome → Text
  | .loaded => txt "LOADED"
  | .blank => txt "DEFAULTS_BLANK"
  | .checkFailed => txt "DEFAULTS_CHECK_FAILED"

def retireOutcomeText : LoadOutcome → Text
  | .loaded => txt "LOADED"
  | .blank => txt "EMPTY_BLANK"
  | .checkFailed => txt "EMPTY_CHECK_FAILED"

/-- The state of an image slot (R173). -/
def slotStateText : ImageHeader → Text
  | .empty => txt "EMPTY"
  | .loading _ _ _ _ => txt "LOADING"
  | .sealed _ _ _ => txt "SEALED"

/-- The kind of the store operation in progress, or IDLE (R200, R205; log 14). -/
def storeText : Option StoreOp → Text
  | none => txt "IDLE"
  | some (.profileSave _) => txt "PROFILE_SAVE"
  | some (.retireSave _) => txt "RETIRE_LIST_SAVE"
  | some (.regionErase _) => txt "REGION_ERASE"
  | some (.pageWrite _ _ _) => txt "IMAGE_PAGE_WRITE"
  | some (.headerWrite _ _ _) => txt "HEADER_WRITE"

/-- The word of an event kind (R199). -/
def kindText : EventKind → Text
  | .start => txt "START"
  | .house => txt "HOUSE"
  | .starved => txt "STARVED"
  | .retireListFull => txt "RETIRE_LIST_FULL"
  | .violation => txt "VIOLATION"
  | .parked => txt "PARKED"
  | .stopped => txt "STOPPED"
  | .issued => txt "ISSUED"
  | .picking => txt "PICKING"
  | .wrongBay => txt "WRONG_BAY"
  | .taken => txt "TAKEN"
  | .expired => txt "EXPIRED"
  | .failed => txt "FAILED"
  | .cancelled => txt "CANCELLED"
  | .rackOnline => txt "RACK_ONLINE"
  | .rackOffline => txt "RACK_OFFLINE"
  | .rackRejected => txt "RACK_REJECTED"
  | .buttonPressed => txt "BUTTON_PRESSED"
  | .seated => txt "SEATED"
  | .unseated => txt "UNSEATED"
  | .topped => txt "TOPPED"
  | .bayDisabled => txt "BAY_DISABLED"
  | .bayEnabled => txt "BAY_ENABLED"
  | .tableFull => txt "TABLE_FULL"
  | .fault => txt "FAULT"
  | .faultCleared => txt "FAULT_CLEARED"
  | .jobDone => txt "JOB_DONE"
  | .jobFailed => txt "JOB_FAILED"
  | .jobAborted => txt "JOB_ABORTED"
  | .zoneUp => txt "ZONE_UP"
  | .zoneDown => txt "ZONE_DOWN"
  | .crowded => txt "CROWDED"
  | .state => txt "STATE"
  | .sources => txt "SOURCES"
  | .slotState => txt "SLOT_STATE"
  | .found => txt "FOUND"
  | .stray => txt "STRAY"
  | .adopted => txt "ADOPTED"
  | .silent => txt "SILENT"
  | .evicted => txt "EVICTED"
  | .retired => txt "RETIRED"
  | .retuned => txt "RETUNED"
  | .untuned => txt "UNTUNED"
  | .located => txt "LOCATED"
  | .noticeTimeout => txt "NOTICE_TIMEOUT"

/-- A source as a report names it (R198). -/
def sourceText : Source → Text
  | .system => txt "SYSTEM"
  | .channel c => txt "CHANNEL" ++ numText c.val
  | .issue n => txt "ISSUE" ++ numText (n.val + 1)
  | .rack r => txt "RACK" ++ numText r.val
  | .bay b => txt "BAY" ++ bayText b
  | .zone z => txt "ZONE" ++ numText z.val
  | .tour t => txt "TOUR" ++ tourText t
  | .image s => txt "IMAGE:" ++ classText s
  | .unit i => txt "UNIT" ++ numText i

/-- The name of a numeric parameter (spec 12 section 12.2). -/
def numParamText : NumParam → Text
  | .silenceLimit => txt "silence_limit"
  | .zoneMargin => txt "zone_margin"
  | .zoneStale => txt "zone_stale"
  | .linger => txt "linger"
  | .noticeLife => txt "notice_life"
  | .pickTime => txt "pick_time"
  | .issueLimit => txt "issue_limit"
  | .readyLevel => txt "ready_level"
  | .topupLevel => txt "topup_level"
  | .hotLimit => txt "hot_limit"
  | .voltLimit => txt "volt_limit"
  | .chargeLimit => txt "charge_limit"
  | .weakGain => txt "weak_gain"
  | .weakWindow => txt "weak_window"
  | .strikeLimit => txt "strike_limit"
  | .t1 => txt "t1"
  | .t2 => txt "t2"
  | .t3 => txt "t3"
  | .t4 => txt "t4"
  | .alarm => txt "alarm"
  | .blinkRate => txt "blink_rate"
  | .flashRate => txt "flash_rate"
  | .pickRate => txt "pick_rate"
  | .rampDelay => txt "ramp_delay"
  | .hold => txt "hold"

/-- The class part of a policy name, in lower case (spec 12 section 12.2). -/
def faultLower : FaultClass → Text
  | .hot => txt "hot"
  | .overvolt => txt "overvolt"
  | .slow => txt "slow"
  | .weakcell => txt "weakcell"
  | .contact => txt "contact"
  | .mute => txt "mute"

/-- The name of a parameter as SET and GET write it (spec 12 section 12.2). -/
def paramText : Param → Text
  | .zoneEnable z => txt "zone" ++ numText z.val ++ txt "_enable"
  | .zoneLabel z => txt "zone" ++ numText z.val ++ txt "_label"
  | .zoneCarrier z => txt "zone" ++ numText z.val ++ txt "_carrier"
  | .rackEnable r => txt "rack" ++ numText r.val ++ txt "_enable"
  | .langEnable l => txt "lang" ++ langText l ++ txt "_enable"
  | .langName l => txt "lang" ++ langText l ++ txt "_name"
  | .retireAfter c => txt "retire_after." ++ faultLower c
  | .recovery c => txt "recovery." ++ faultLower c
  | .num n => numParamText n
  | .autoRefresh => txt "auto_refresh"

/-- Every numeric parameter, in the order of the table. -/
def allNumParams : List NumParam :=
  [.silenceLimit, .zoneMargin, .zoneStale, .linger, .noticeLife, .pickTime, .issueLimit,
   .readyLevel, .topupLevel, .hotLimit, .voltLimit, .chargeLimit, .weakGain, .weakWindow,
   .strikeLimit, .t1, .t2, .t3, .t4, .alarm, .blinkRate, .flashRate, .pickRate, .rampDelay, .hold]

/-- Every parameter, in the order of the table of spec 12 section 12.2, each row's instances
ascending. Of its one row retire_after.class, recovery.class all names of the first family stand before
those of the second, the model's choice (log 33). -/
def allParams : List Param :=
  allZones.map .zoneEnable ++ allZones.map .zoneLabel ++ allZones.map .zoneCarrier ++
  allRacks.map .rackEnable ++ allLangs.map .langEnable ++ allLangs.map .langName ++
  allFaultClasses.map .retireAfter ++ allFaultClasses.map .recovery ++
  allNumParams.map .num ++ [.autoRefresh]

end Sys2Proof.Machine
end

