-- ==== Sys2Proof/Machine/Operands.lean ====
section
/-! DEFINITION. The operand forms of the host verbs: every check a rule makes on a field before it
looks at the part's records. A field that is missing or malformed fails the check as one out of
range does (R194). Also the two ways an owner hands back its answer. -/

namespace Sys2Proof.Machine

/-- What the owning block hands back (R194): a reply now, a reply that waits for the end of a store
operation (R200), or RESTART's reply, after which a full reset is taken (R204). -/
inductive Answer where
  | reply (result : ResultWord) (fields : Fields)
  | waits
  | restart
deriving DecidableEq, Repr

/-- The value of a field, if it has one. -/
def fieldVal {α : Type} : HostField α → Option α
  | .val a => some a
  | _ => none

/-- Whether the field was not written at all. -/
def fieldAbsent {α : Type} : HostField α → Bool
  | .absent => true
  | _ => false

/-- A number from `lo` to `hi`. -/
def rangeField (lo hi : Nat) : HostField Nat → Option Nat
  | .val n => if lo ≤ n ∧ n ≤ hi then some n else none
  | _ => none

/-- A number from `lo` up, as one of `n` objects. -/
def indexField (lo n : Nat) : HostField Nat → Option (Fin n)
  | .val v => if h : lo ≤ v ∧ v - lo < n then some ⟨v - lo, h.2⟩ else none
  | _ => none

/-- A tour number, 1 to 32. -/
def tourField (f : HostField Nat) : Option TourNo := indexField 1 32 f

/-- A language code, 1 to 16. -/
def langField (f : HostField Nat) : Option LangNo := indexField 1 16 f

/-- A zone, 0 to 7. -/
def zoneField (f : HostField Nat) : Option ZoneNo := indexField 0 8 f

/-- A rack, 0 to 7. -/
def rackField (f : HostField Nat) : Option RackNo := indexField 0 8 f

/-- A channel, 0 to 3. -/
def channelField (f : HostField Nat) : Option ChannelNo := indexField 0 4 f

/-- An issue record, 1 to 16. -/
def issueField (f : HostField Nat) : Option IssueNo := indexField 1 16 f

/-- A valid unit id (spec 00 section 2.2). -/
def unitField : HostField UnitId → Option UnitId
  | .val u => if validUnit u then some u else none
  | _ => none

/-- A rack.bay reference with rack 0 to 7 and bay 1 to 24. -/
def bayField : HostField BayName → Option BayRef
  | .val b =>
    if h : b.rack < 8 ∧ 1 ≤ b.bay ∧ b.bay - 1 < 24 then some ⟨⟨b.rack, h.1⟩, ⟨b.bay - 1, h.2.2⟩⟩ else none
  | _ => none

/-- A label of 0 to 16 characters. -/
def labelField : HostField Text → Option Text
  | .val t => if t.length ≤ 16 then some t else none
  | _ => none

/-- Numbers of a list as distinct objects; `none` when one is out of range or named twice. -/
def indexList (lo n : Nat) : List Nat → Option (List (Fin n))
  | [] => some []
  | v :: vs =>
    match indexField lo n (.val v), indexList lo n vs with
    | some i, some l => if l.contains i then none else some (i :: l)
    | _, _ => none

/-- The field zones of the house commands, as an ascending set: not empty, each 0 to 7, none twice, or
ALL (R88, R89). -/
def zoneSetField : HostField ZoneList → Option (List ZoneNo)
  | .val .all => some allZones
  | .val (.list l) =>
    match indexList 0 8 l with
    | some [] => none
    | some zs => some (allZones.filter (zs.contains ·))
    | none => none
  | _ => none

/-- The field languages of HOUSE_START: 1 to 4 codes, each 1 to 16, none twice (R88). -/
def languagesField : HostField (List Nat) → Option (List LangNo)
  | .val l =>
    match indexList 1 16 l with
    | some ls => if 1 ≤ ls.length ∧ ls.length ≤ 4 then some ls else none
    | none => none
  | _ => none

/-- The kinds a field of REPORT_ENABLE names: none when absent, `none` when it holds a word that is
not a kind (R199). -/
def kindsField : HostField KindList → Option (List EventKind)
  | .absent => some []
  | .bad => none
  | .val .all => some allKinds
  | .val (.list l) => l.foldr (fun k acc => match k, acc with
      | some k, some ks => some (k :: ks)
      | _, _ => none) (some [])

/-- Whether a field of REPORT_ENABLE is the word ALL. -/
def isAllKinds : HostField KindList → Bool
  | .val .all => true
  | _ => false

/-- The range of a numeric parameter (spec 12 section 12.2). -/
def numRange : NumParam → Nat × Nat
  | .silenceLimit => (5, 300)
  | .zoneMargin => (0, 20)
  | .zoneStale => (1, 10)
  | .linger => (25, 1500)
  | .noticeLife => (2, 60)
  | .pickTime => (5, 120)
  | .issueLimit => (10, 120)
  | .readyLevel => (50, 100)
  | .topupLevel => (80, 99)
  | .hotLimit => (300, 600)
  | .voltLimit => (4000, 4500)
  | .chargeLimit => (30, 600)
  | .weakGain => (1, 20)
  | .weakWindow => (5, 60)
  | .strikeLimit => (1, 10)
  | .t1 => (1, 99)
  | .t2 => (1, 99)
  | .t3 => (1, 99)
  | .t4 => (1, 99)
  | .alarm => (0, 50)
  | .blinkRate => (1, 8)
  | .flashRate => (1, 8)
  | .pickRate => (1, 8)
  | .rampDelay => (0, 500)
  | .hold => (1, 30)

/-- Whether a SET value has its parameter's form and range; ramp_delay goes in steps of 10 (R202). The
order of the thresholds is judged on the whole command. -/
def setValueOk : Param → SetValue → Bool
  | .zoneEnable _, .onOff _ => true
  | .zoneLabel _, .label t => t.length ≤ 16
  | .zoneCarrier _, .num n => n ≤ 15
  | .rackEnable _, .onOff _ => true
  | .langEnable _, .onOff _ => true
  | .langName _, .label t => t.length ≤ 16
  | .retireAfter _, .num n => n ≤ 15
  | .recovery _, .recovery _ => true
  | .num q, .num n =>
    (numRange q).1 ≤ n && n ≤ (numRange q).2 && (q != .rampDelay || n % 10 == 0)
  | .autoRefresh, .onOff _ => true
  | _, _ => false

end Sys2Proof.Machine
end

