-- ==== Sys2Proof/Machine/Flags.lean ====
section
/-! DEFINITION. The standings and flags the manual derives from the records: tour and stream
standings, the state, display and ready conditions of a bay, the engine's conditions, and the values
of the profile's parameters. -/

namespace Sys2Proof.Machine

/-! ### Tours and streams (R2, R13, R14) -/

/-- The states that accept claims and sources (R2). -/
def TourState.open : TourState → Bool
  | .forming | .live | .paused => true
  | _ => false

/-- The states in which listeners have effective streams (R2). -/
def TourState.streams : TourState → Bool
  | .live | .paused => true
  | _ => false

/-- The source of a language of a tour. -/
def Tour.source (t : Tour) (l : LangNo) : Option UnitId := (t.sources.find? (·.1 == l)).map (·.2)

/-- Whether the tour has a floor source (R1). -/
def Tour.hasFloor (t : Tour) : Bool :=
  match t.floor with
  | some l => (t.source l).isSome
  | none => false

/-- The effective stream of an assignment (R14). -/
def Part.effective (p : Part) (a : Option Tune) : Option Tune :=
  match a with
  | none => none
  | some t =>
    let k := p.tour t.tour
    if k.state.streams then
      if (k.source t.lang).isSome then some t else k.floor.map fun l => ⟨t.tour, l⟩
    else none

/-- The zone of an entry that contributes or holds an uplink claim: ON_AIR with a zone (R21). -/
def Entry.airZone (e : Entry) : Option ZoneNo :=
  match e.state with
  | .onAir => e.zone
  | _ => none

/-- The stream a LISTENER entry is counted in (R31). -/
def Part.entryStream (p : Part) (e : Entry) : Option Tune :=
  match e.cls with
  | .listener => p.effective e.assignment
  | .voice => none

/-- The tour and language a unit is the source of (R10: at most one). -/
def Part.sourceOf (p : Part) (u : UnitId) : Option Tune :=
  allTours.findSome? fun t =>
    ((p.tour t).sources.find? (·.2 == u)).map fun x => ⟨t, x.1⟩

/-- Whether a stream is its tour's floor stream (R1). -/
def Part.isFloor (p : Part) (t : Tune) : Bool := (p.tour t.tour).floor == some t.lang

/-- The closing set of R2. -/
def Part.closingTours (p : Part) : List TourNo := allTours.filter fun t => (p.tour t).state == .closing

/-- The sounding streams of R13: the streams of LIVE tours whose language has a source. -/
def Part.soundingStreams (p : Part) : List Tune :=
  allTours.flatMap fun t =>
    if (p.tour t).state == .live then
      (allLangs.filter fun l => ((p.tour t).source l).isSome).map fun l => ⟨t, l⟩
    else []

/-- The three parts of a tour's count (R9, R15). -/
def Part.heldCount (p : Part) (t : TourNo) : Nat :=
  p.units.countP fun x => x.2.cls == .listener && (x.2.assignment.map (·.tour)) == some t

def IssueState.inProgress : IssueState → Bool
  | .tuning | .picking => true
  | _ => false

def IssueState.final : IssueState → Bool
  | .taken | .expired | .failed | .cancelled => true
  | _ => false

def Part.issuingCount (p : Part) (t : TourNo) : Nat :=
  allIssues.countP fun n => (p.issue n).state.inProgress && ((p.issue n).tune.map (·.tour)) == some t

def Part.retuningCount (p : Part) (t : TourNo) : Nat :=
  p.units.countP fun x => match x.2.notice with
    | some n => n.reserving && (n.target.map (·.tour)) == some t
    | none => false

/-- The check of a new claim on (tour, language), in the order of R15; `none` when it passes. -/
def Part.claimCheck (p : Part) (t : TourNo) (l : LangNo) : Option ResultWord :=
  if !p.langEnabled l then some .badArg
  else if !(p.tour t).state.open then some .state
  else if (p.tour t).capacity ≤ (p.tour t).count then some .full
  else none

/-- Whether a language is in use (R18). -/
def Part.langInUse (p : Part) (l : LangNo) : Bool :=
  (allTours.any fun t => (p.tour t).state != .free && (p.tour t).floor == some l) ||
  (allTours.any fun t => (p.tour t).sources.any (·.1 == l)) ||
  (p.units.any fun x => (x.2.assignment.map (·.lang)) == some l) ||
  (allIssues.any fun n => (p.issue n).state.inProgress && ((p.issue n).tune.map (·.lang)) == some l) ||
  (p.units.any fun x => match x.2.notice with
    | some n => n.kind == .retune && (n.target.map (·.lang)) == some l
    | none => false) ||
  (p.house.running && p.house.tracks.any (·.lang == l))

/-! ### Bays (R98, R107, R140, R141) -/

/-- Whether a bay number stands within its rack's bay count (R98). -/
def Part.present (p : Part) (b : BayRef) : Bool :=
  match (p.rack b.rack).bayCount with
  | none => true
  | some n => b.no.val < n

/-- The bay a module's event or survey names, when it is not absent (R98). -/
def Part.namedBay (p : Part) (r : RackNo) (n : Nat) : Option BayRef :=
  if h : 1 ≤ n ∧ n - 1 < 24 then
    if p.present ⟨r, ⟨n - 1, h.2⟩⟩ then some ⟨r, ⟨n - 1, h.2⟩⟩ else none
  else none

inductive BayState where
  | unreachable | disabled | empty | occupied
deriving DecidableEq, Repr

/-- A bay's state (R107). -/
def Part.bayState (p : Part) (b : BayRef) : BayState :=
  if (p.rack b.rack).state != .online then .unreachable
  else if !(p.bay b).enable then .disabled
  else if (p.bay b).occupant.isSome then .occupied
  else .empty

def bayStateText : BayState → Text
  | .unreachable => txt "UNREACHABLE"
  | .disabled => txt "DISABLED"
  | .empty => txt "EMPTY"
  | .occupied => txt "OCCUPIED"

/-- The listed occupant of a bay. -/
def Part.listedIn (p : Part) (b : BayRef) : Option UnitId :=
  match (p.bay b).occupant with
  | some o => if o.listed then some o.unit else none
  | none => none

/-- The entry of a bay's listed occupant. -/
def Part.occupantEntry (p : Part) (b : BayRef) : Option Entry := (p.listedIn b).bind p.entry

/-- Whether an issue record in TUNING or PICKING names the unit (R177). -/
def Part.issueNames (p : Part) (u : UnitId) : Bool :=
  allIssues.any fun n => (p.issue n).state.inProgress && (p.issue n).unit == some u

/-- Whether an issue record in TUNING or PICKING names the bay (R177). -/
def Part.issueNamesBay (p : Part) (b : BayRef) : Bool :=
  allIssues.any fun n => (p.issue n).state.inProgress && (p.issue n).bay == some b

/-- The level count of a bay (R140). -/
def Part.levelCount (p : Part) (b : BayRef) : Nat :=
  match (p.bay b).telemetry with
  | none => 1
  | some t => 1 + [p.profile.t1, p.profile.t2, p.profile.t3, p.profile.t4].countP (· < t.level)

/-- The display of a bay: the first row of the table of R141 that holds. -/
def Part.displayOf (p : Part) (b : BayRef) : Display :=
  let y := p.bay b
  let n := p.levelCount b
  if p.bayState b != .occupied then .off
  else if y.pickMark then ⟨.pick, 5⟩
  else if y.fault.isSome then ⟨.fault, 1⟩
  else if (match p.occupantEntry b with | some e => e.retired | none => false) then ⟨.retired, 1⟩
  else if y.session == .charging then
    if (match y.telemetry with | some t => decide (t.level ≤ p.profile.alarm) | none => false) then ⟨.chargeAlarm, n⟩
    else ⟨.charging, n⟩
  else if y.session == .topped then
    match (p.rack b.rack).showState with
    | .ramp step _ => ⟨.show, min step n⟩
    | .hold _ => ⟨.show, n⟩
    | .idle => .off
  else .off

/-- The ready conditions of the unit in a bay (R115). -/
def Part.readyHolds (p : Part) (b : BayRef) : Bool :=
  let y := p.bay b
  p.bayState b == .occupied &&
  (match p.occupantEntry b with
    | some e => !e.retired && e.fwState == .complete && !e.tuned && !p.issueNames e.unit
    | none => false) &&
  y.fault.isNone && y.job.isNone && !y.needUntune && !y.needRefresh && y.identified &&
  (match y.telemetry with | some t => decide (p.profile.readyLevel ≤ t.level) | none => false)

/-! ### Jobs and channels -/

/-- A job's kind (R149). -/
def JobWork.kind : JobWork → JobKind
  | .identify => .identify
  | .tune _ => .tune
  | .refresh _ => .refresh
  | .maintRead _ _ _ => .maintRead
  | .maintWrite _ _ _ => .maintWrite
  | .maintErase _ _ _ => .maintErase

/-- URGENT for a TUNE requested by the issue controller, NORMAL for every other job (R149). -/
def JobWork.urgent : JobWork → Bool
  | .tune (some _) => true
  | _ => false

def urgentText (b : Bool) : Text := if b then txt "URGENT" else txt "NORMAL"

/-- The area a job opens (R161). -/
def JobWork.area : JobWork → Option Area
  | .identify => none
  | .tune _ => some .tune
  | .refresh _ => some .firmware
  | .maintRead a _ _ => some a
  | .maintWrite a _ _ => some a
  | .maintErase a _ _ => some a

/-- The jobs that stand on channels, ascending, a channel's parked job before its active job (the
order of R168). -/
def Part.channelJobs (p : Part) : List Job :=
  allChannels.flatMap fun c => (p.channel c).parked.toList ++ (p.channel c).active.toList

/-- Every job that has not ended, in the order of R168. -/
def Part.jobs (p : Part) : List Job := p.channelJobs ++ p.queue

/-- The job of a number, if one holds it. -/
def Part.jobNumbered (p : Part) (n : Nat) : Option Job := p.jobs.find? (·.number == n)

/-- Whether a REFRESH names the slot (R173, R174). -/
def Part.refreshNames (p : Part) (s : UnitClass) : Bool := p.jobs.any (·.work == .refresh s)

/-- Whether a slot is SEALED. -/
def ImageHeader.isSealed : ImageHeader → Bool
  | .sealed _ _ _ => true
  | _ => false

def ImageHeader.isLoading : ImageHeader → Bool
  | .loading _ _ _ _ => true
  | _ => false

/-- The revision, page count and checksum of a header; zero when EMPTY. -/
def ImageHeader.revision : ImageHeader → Nat
  | .empty => 0
  | .loading r _ _ _ => r
  | .sealed r _ _ => r

def ImageHeader.pages : ImageHeader → Nat
  | .empty => 0
  | .loading _ n _ _ => n
  | .sealed _ n _ => n

def ImageHeader.checksum : ImageHeader → BitVec 32
  | .empty => 0
  | .loading _ _ c _ => c
  | .sealed _ _ c => c

/-- Whether any job is RUNNING or PARKED, or active on a YIELDING channel (R203). -/
def Part.anyJobOnChannel (p : Part) : Bool := !p.channelJobs.isEmpty

/-- Whether all four channels are LOCKED (R170). -/
def Part.allLocked (p : Part) : Bool := allChannels.all fun c => (p.channel c).state == .locked

/-! ### Parameters of the profile -/

/-- The value of a numeric parameter. -/
def Profile.num (f : Profile) : NumParam → Nat
  | .silenceLimit => f.silenceLimit
  | .zoneMargin => f.zoneMargin
  | .zoneStale => f.zoneStale
  | .linger => f.linger
  | .noticeLife => f.noticeLife
  | .pickTime => f.pickTime
  | .issueLimit => f.issueLimit
  | .readyLevel => f.readyLevel
  | .topupLevel => f.topupLevel
  | .hotLimit => f.hotLimit
  | .voltLimit => f.voltLimit
  | .chargeLimit => f.chargeLimit
  | .weakGain => f.weakGain
  | .weakWindow => f.weakWindow
  | .strikeLimit => f.strikeLimit
  | .t1 => f.t1
  | .t2 => f.t2
  | .t3 => f.t3
  | .t4 => f.t4
  | .alarm => f.alarm
  | .blinkRate => f.blinkRate
  | .flashRate => f.flashRate
  | .pickRate => f.pickRate
  | .rampDelay => f.rampDelay
  | .hold => f.hold

/-- Setting a numeric parameter. -/
def Profile.setNum (f : Profile) (q : NumParam) (n : Nat) : Profile :=
  match q with
  | .silenceLimit => { f with silenceLimit := n }
  | .zoneMargin => { f with zoneMargin := n }
  | .zoneStale => { f with zoneStale := n }
  | .linger => { f with linger := n }
  | .noticeLife => { f with noticeLife := n }
  | .pickTime => { f with pickTime := n }
  | .issueLimit => { f with issueLimit := n }
  | .readyLevel => { f with readyLevel := n }
  | .topupLevel => { f with topupLevel := n }
  | .hotLimit => { f with hotLimit := n }
  | .voltLimit => { f with voltLimit := n }
  | .chargeLimit => { f with chargeLimit := n }
  | .weakGain => { f with weakGain := n }
  | .weakWindow => { f with weakWindow := n }
  | .strikeLimit => { f with strikeLimit := n }
  | .t1 => { f with t1 := n }
  | .t2 => { f with t2 := n }
  | .t3 => { f with t3 := n }
  | .t4 => { f with t4 := n }
  | .alarm => { f with alarm := n }
  | .blinkRate => { f with blinkRate := n }
  | .flashRate => { f with flashRate := n }
  | .pickRate => { f with pickRate := n }
  | .rampDelay => { f with rampDelay := n }
  | .hold => { f with hold := n }

/-- The value of a parameter (R202). -/
def Profile.value (f : Profile) : Param → SetValue
  | .zoneEnable z => .onOff f.zones[z].enable
  | .zoneLabel z => .label f.zones[z].label
  | .zoneCarrier z => .num f.zones[z].carrier
  | .rackEnable r => .onOff f.rackEnable[r]
  | .langEnable l => .onOff f.langs[l].enable
  | .langName l => .label f.langs[l].name
  | .retireAfter c => .num (f.policy c).retireAfter
  | .recovery c => .recovery (f.policy c).recovery
  | .num q => .num (f.num q)
  | .autoRefresh => .onOff f.autoRefresh

/-- Writing a parameter; a value of another form changes nothing. -/
def Profile.write (f : Profile) : Param → SetValue → Profile
  | .zoneEnable z, .onOff b => { f with zones := f.zones.set z { f.zones[z] with enable := b } }
  | .zoneLabel z, .label t => { f with zones := f.zones.set z { f.zones[z] with label := t } }
  | .zoneCarrier z, .num n => { f with zones := f.zones.set z { f.zones[z] with carrier := n } }
  | .rackEnable r, .onOff b => { f with rackEnable := f.rackEnable.set r b }
  | .langEnable l, .onOff b => { f with langs := f.langs.set l { f.langs[l] with enable := b } }
  | .langName l, .label t => { f with langs := f.langs.set l { f.langs[l] with name := t } }
  | .retireAfter c, .num n =>
    { f with policies := f.policies.set (faultIdx c) { f.policy c with retireAfter := n } }
  | .recovery c, .recovery r =>
    { f with policies := f.policies.set (faultIdx c) { f.policy c with recovery := r } }
  | .num q, .num n => f.setNum q n
  | .autoRefresh, .onOff b => { f with autoRefresh := b }
  | _, _ => f

/-- The text of a parameter's value. -/
def setValueText : SetValue → Text
  | .onOff b => if b then txt "on" else txt "off"
  | .label t => labelText t
  | .num n => numText n
  | .recovery r => recoveryText r
  | .bad => []

/-- The number of parameters that differ from their defaults; the report enable set counts once
(R203). -/
def Profile.savedCount (f : Profile) : Nat :=
  (allParams.countP fun q => f.value q != Profile.default.value q) +
    (if f.disabledKinds.isEmpty then 0 else 1)

end Sys2Proof.Machine
end

