-- ==== Sys2Proof/Machine/Carriage.lean ====
section
/-! DEFINITION. The zone scheduler's working plan (spec 03): carriages and their slots, the wait queue,
linger, house track claims and releases, the uplink slots and queue, and the frame store. -/

namespace Sys2Proof.Machine

/-! ### Carriages of one zone -/

/-- The carriage of a stream (R54: at most one). -/
def Zone.carriage (z : Zone) (st : CarrStream) : Option Carriage :=
  z.carriages.find? (·.stream == st)

/-- Changing the carriage of a stream. -/
def Zone.modCarriage (z : Zone) (st : CarrStream) (f : Carriage → Carriage) : Zone :=
  { z with carriages := z.carriages.map fun c => if c.stream = st then f c else c }

/-- The carriage holding a downlink slot. -/
def Zone.holder (z : Zone) (k : Nat) : Option Carriage := z.carriages.find? (·.slot == some k)

/-- The lowest-numbered downlink slot that holds no carriage (R56). -/
def Zone.freeSlot (z : Zone) : Option Nat := Config.downSlots.find? fun k => (z.holder k).isNone

/-- Downlink slots now held. -/
def Zone.slotsHeld (z : Zone) : Nat := z.carriages.countP (·.slot.isSome)

/-- Comparing the peak counters with the present values (R67). -/
def Zone.notePeaks (z : Zone) : Zone :=
  { z with peakSlots := max z.peakSlots z.slotsHeld
           peakWaiting := max z.peakWaiting z.waitQueue.length }

/-- Giving a slot to the carriage of a stream; a carriage newly placed has no last frame (R58, R62). -/
def Zone.placeIn (z : Zone) (st : CarrStream) (k : Nat) : Zone :=
  z.modCarriage st fun c =>
    { c with slot := some k, placedSince := some z.cycleCount, lastFrame := none }

/-- Serving a wait queue: its head takes the lowest free slot while there is one (R58). -/
def Zone.serveList : List CarrStream → Zone → Zone
  | [], z => { z with waitQueue := [] }
  | st :: rest, z =>
    match z.freeSlot with
    | some k => Zone.serveList rest (z.placeIn st k)
    | none => { z with waitQueue := st :: rest }

/-- Serving the wait queue after slots fell free (R58). -/
def Zone.serveWait (z : Zone) : Zone := (Zone.serveList z.waitQueue z).notePeaks

/-- Removing carriages, from the list and from the wait queue; their slots fall free. -/
def Zone.dropCarriages (z : Zone) (gone : CarrStream → Bool) : Zone :=
  { z with carriages := z.carriages.filter fun c => !gone c.stream
           waitQueue := z.waitQueue.filter fun st => !gone st }

/-! ### The wait queue's classes (R58) -/

/-- House track carriages, then floor carriages, then the others. -/
def Part.streamClass (p : Part) : CarrStream → Nat
  | .house _ => 0
  | .tour t => if p.isFloor t then 1 else 2

/-- Joining at the tail of its class. -/
def queueTail (cls : CarrStream → Nat) (st : CarrStream) (q : List CarrStream) : List CarrStream :=
  q.takeWhile (fun x => cls x ≤ cls st) ++ st :: q.dropWhile (fun x => cls x ≤ cls st)

/-- Inserted at the head of its class (R59). -/
def queueHead (cls : CarrStream → Nat) (st : CarrStream) (q : List CarrStream) : List CarrStream :=
  q.takeWhile (fun x => cls x < cls st) ++ st :: q.dropWhile (fun x => cls x < cls st)

/-- CROWDED is raised when the wait queue went from empty to holding a carriage (R71). -/
def Part.noteCrowded (before : Part) (z : ZoneNo) (after : Part) : Part :=
  if (before.zone z).waitQueue.isEmpty && !(after.zone z).waitQueue.isEmpty then
    after.raise (.zone z) .crowded
  else after

/-! ### Listener additions and removals (R55 to R57) -/

/-- A carriage created with a count: placed in the lowest free slot, or waiting (R56). -/
def Part.createCarriage (p : Part) (z : ZoneNo) (st : CarrStream) (count : Nat) : Part :=
  let x := p.zone z
  let y := { x with carriages := x.carriages ++ [Carriage.mk st none count none none none] }
  match x.freeSlot with
  | some k => p.setZone z (y.placeIn st k).notePeaks
  | none =>
    p.noteCrowded z (p.setZone z
      ({ y with waitQueue := queueTail p.streamClass st y.waitQueue } : Zone).notePeaks)

/-- An addition of one listener; dropped by a zone that is not UP (R55). -/
def Part.addListener (p : Part) (z : ZoneNo) (t : Tune) : Part :=
  if (p.zone z).state != .up then p
  else match (p.zone z).carriage (.tour t) with
    | some _ => p.modZone z (·.modCarriage (.tour t) fun c =>
        { c with count := c.count + 1, linger := none })
    | none => p.createCarriage z (.tour t) 1

/-- A removal of one listener: at 0 a placed carriage lingers and a waiting one is removed (R55,
R57). -/
def Part.removeListener (p : Part) (z : ZoneNo) (t : Tune) : Part :=
  if (p.zone z).state != .up then p
  else match (p.zone z).carriage (.tour t) with
    | none => p
    | some c =>
      if c.count = 0 then p
      else if 1 < c.count then
        p.modZone z (·.modCarriage (.tour t) fun c => { c with count := c.count - 1 })
      else if c.slot.isSome then
        p.modZone z (·.modCarriage (.tour t) fun c =>
          { c with count := 0, linger := some p.profile.linger })
      else p.modZone z (·.dropCarriages (· == .tour t))

/-- The pair (old stream, new stream) of one event, the removal first; equal streams move nothing
(R14, R55). -/
def Part.moveListener (p : Part) (z : ZoneNo) (old new : Option Tune) : Part :=
  if old = new then p
  else
    let p := match old with | some t => p.removeListener z t | none => p
    match new with | some t => p.addListener z t | none => p

/-- The countdown of one boundary (R57): every linger falls by 1, what reaches 0 is removed, and the
queue is then served. -/
def Zone.countLinger (z : Zone) : Zone :=
  let cs := z.carriages.map fun c => { c with linger := c.linger.map (· - 1) }
  let kept := cs.filter fun c => c.linger != some 0
  let y := { z with carriages := kept }
  if kept.length = cs.length then y else y.serveWait

/-- The expiry of one lingering carriage (R57). -/
def Zone.expireLinger (z : Zone) (st : CarrStream) : Zone :=
  match z.carriage st with
  | some c => if c.linger.isSome then (z.dropCarriages (· == st)).serveWait else z
  | none => z

/-! ### House track claims and releases (R59, R60) -/

/-- Whether placed tour carriage `a` is chosen as the victim before `b` (R59). -/
def victimBefore (a b : Carriage) : Bool :=
  let slot (c : Carriage) := c.slot.getD 0
  let since (c : Carriage) := c.placedSince.getD 0
  match a.linger, b.linger with
  | some x, some y => x < y || (x == y && slot a < slot b)
  | some _, none => true
  | none, some _ => false
  | none, none =>
    a.count < b.count || (a.count == b.count &&
      (since b < since a || (since a == since b && slot b < slot a)))

/-- The victim of a house track claim that finds no free slot (R59). -/
def Zone.victim (z : Zone) : Option Carriage :=
  z.carriages.foldl (fun best c =>
    match c.stream, c.slot with
    | .tour _, some _ =>
      match best with
      | none => some c
      | some b => if victimBefore c b then some c else best
    | _, _ => best) none

/-- One claim: the lowest free slot, else the victim's; victims that do not linger are collected to
join the wait queue (R59). -/
def Zone.claimTrack (cls : CarrStream → Nat) (zv : Zone × List Carriage) (k : TrackNo) :
    Zone × List Carriage :=
  let z := zv.1
  if (z.carriage (.house k)).isSome then zv
  else
    let y := { z with carriages := z.carriages ++ [Carriage.mk (.house k) none 0 none none none] }
    match z.freeSlot with
    | some s => (y.placeIn (.house k) s, zv.2)
    | none =>
      match z.victim with
      | none => ({ y with waitQueue := queueTail cls (.house k) y.waitQueue }, zv.2)
      | some v =>
        let s := v.slot.getD 0
        if v.linger.isSome then ((y.dropCarriages (· == v.stream)).placeIn (.house k) s, zv.2)
        else
          ((y.modCarriage v.stream fun c => { c with slot := none, placedSince := none, lastFrame := none }).placeIn
            (.house k) s, zv.2 ++ [v])

/-- Inserting by descending count, behind equals. -/
def insertByCount (v : Carriage) : List Carriage → List Carriage
  | [] => [v]
  | w :: ws => if w.count < v.count then v :: w :: ws else w :: insertByCount v ws

/-- The victims of one event, the largest count first, equal counts in the order chosen (R59). -/
def sortVictims (vs : List Carriage) : List Carriage := vs.foldl (fun acc v => insertByCount v acc) []

/-- The house track claims one event hands to a zone, in track order (R59). -/
def Part.claimTracks (p : Part) (z : ZoneNo) (ks : List TrackNo) : Part :=
  if (p.zone z).state != .up then p
  else
    let r := ks.foldl (Zone.claimTrack p.streamClass) (p.zone z, [])
    let q := (sortVictims r.2).foldr (fun v q => queueHead p.streamClass v.stream q) r.1.waitQueue
    p.noteCrowded z (p.setZone z ({ r.1 with waitQueue := q } : Zone).notePeaks)

/-- The house track releases one event hands to a zone: all freed first, then the queue served
(R60). -/
def Part.releaseTracks (p : Part) (z : ZoneNo) : Part :=
  if (p.zone z).state != .up then p
  else p.modZone z fun x =>
    (x.dropCarriages fun st => match st with | .house _ => true | .tour _ => false).serveWait

/-! ### Uplink voice slots (R63, R64) -/

/-- The lowest-numbered uplink slot that holds no unit; index 0 is slot 15. -/
def Zone.freeUplink (z : Zone) : Option (Fin 7) := (List.finRange 7).find? fun i => z.uplink[i].isNone

/-- Serving the uplink queue: its head takes the lowest free slot while there is one (R64). -/
def Zone.serveUplinkList : List (UnitId × Bool) → Zone → Zone
  | [], z => { z with uplinkQueue := [] }
  | x :: rest, z =>
    match z.freeUplink with
    | some i => Zone.serveUplinkList rest { z with uplink := z.uplink.set i (some x.1) }
    | none => { z with uplinkQueue := x :: rest }

def Zone.serveUplink (z : Zone) : Zone := Zone.serveUplinkList z.uplinkQueue z

/-- Whether a unit holds an uplink slot or waits for one. -/
def Zone.hasUplink (z : Zone) (u : UnitId) : Bool :=
  z.uplink.toList.contains (some u) || z.uplinkQueue.any (·.1 == u)

/-- An uplink claim: the lowest free slot, or the tail of the queue's class, floor sources first
(R63). -/
def Zone.claimUplink (z : Zone) (u : UnitId) (floor : Bool) : Zone :=
  if z.hasUplink u then z
  else match z.freeUplink with
    | some i => { z with uplink := z.uplink.set i (some u) }
    | none =>
      if floor then
        { z with uplinkQueue := z.uplinkQueue.takeWhile (·.2) ++ (u, true) :: z.uplinkQueue.dropWhile (·.2) }
      else { z with uplinkQueue := z.uplinkQueue ++ [(u, false)] }

def Part.claimUplink (p : Part) (z : ZoneNo) (u : UnitId) (floor : Bool) : Part :=
  if (p.zone z).state != .up then p else p.modZone z (·.claimUplink u floor)

/-- An uplink release: a held slot is freed and the queue served, a waiting unit leaves the queue
(R64). -/
def Zone.releaseUplink (z : Zone) (u : UnitId) : Zone :=
  if z.hasUplink u then
    ({ z with uplink := z.uplink.map fun o => if o = some u then none else o
              uplinkQueue := z.uplinkQueue.filter (·.1 != u) } : Zone).serveUplink
  else z

def Part.releaseUplink (p : Part) (z : ZoneNo) (u : UnitId) : Part :=
  if (p.zone z).state != .up then p else p.modZone z (·.releaseUplink u)

/-! ### The frame store (R61) -/

/-- The current frame of a stream. -/
def FrameStore.frame (f : FrameStore) (t : Tune) : Option Frame := f.frames.find? (·.stream == t)

/-- Filing a packet as the current frame of its stream, with the next filing serial. -/
def FrameStore.file (f : FrameStore) (t : Tune) (a : Audio) : FrameStore :=
  ⟨f.frames.filter (·.stream != t) ++ [⟨t, a, f.next⟩], f.next + 1⟩

/-- Discarding a stream's current frame. -/
def FrameStore.discard (f : FrameStore) (t : Tune) : FrameStore :=
  { f with frames := f.frames.filter (·.stream != t) }

/-- Handing the closing set and the sounding set to every zone, in every zone state (R2, R13, R45). -/
def Part.handSets (p : Part) : Part :=
  let closing := p.closingTours
  let sounding := p.soundingStreams
  { p with zones := p.zones.map fun z => { z with closingSet := closing, soundingSet := sounding } }

end Sys2Proof.Machine
end

