-- ==== Sys2Proof/Machine/Tours.lean ====
section
/-! DEFINITION. The tour table's shared operations (spec 01): claims and their release, the recompute of
effective streams, the loss of a source. -/

namespace Sys2Proof.Machine

/-- A claim passes: the count rises by 1 (R15). -/
def Part.takeClaim (p : Part) (t : TourNo) : Part :=
  p.modTour t fun k => { k with count := k.count + 1 }

/-- A release: the count falls by 1 (R16); a CLOSING tour brought to 0 becomes FREE (R7). -/
def Part.releaseClaim (p : Part) (t : TourNo) : Part :=
  let k := p.tour t
  if k.state = .closing ∧ k.count ≤ 1 then
    ((p.setTour t Tour.free).raise (.tour t) .state).handSets
  else p.setTour t { k with count := k.count - 1 }

/-- The moves of listeners one change of the tour table causes: every LISTENER entry ON_AIR with a zone
whose effective stream differs is handed to its zone's scheduler, in table order (R14; log 9); the
closing and sounding sets are handed to every zone (R2, R13). -/
def Part.restream (before after : Part) : Part :=
  (after.units.foldl (fun q x =>
    match x.2.airZone with
    | some z => q.moveListener z (before.entryStream x.2) (after.entryStream x.2)
    | none => q) after).handSets

/-- The zone in which a unit is ON_AIR, if it is. -/
def Part.airZoneOf (p : Part) (u : UnitId) : Option ZoneNo := (p.entry u).bind Entry.airZone

/-- A source leaves its tour's list: its uplink claim is released in its zone, and its stream's current
frame is discarded (R11, R12, R61). -/
def Part.dropSource (p : Part) (t : TourNo) (x : LangNo × UnitId) : Part :=
  let p := p.modTour t fun k => { k with sources := k.sources.filter (· != x) }
  let p := match p.airZoneOf x.2 with
    | some z => p.releaseUplink z x.2
    | none => p
  { p with frames := p.frames.discard ⟨t, x.1⟩ }

/-- A source is withdrawn without a command: a LIVE tour losing its floor source pauses, and the
effective streams are recomputed once, from the final state and list (R12). -/
def Part.withdrawSource (p : Part) (u : UnitId) : Part :=
  match p.sourceOf u with
  | none => p
  | some s =>
    let q := p.dropSource s.tour (s.lang, u)
    let k := q.tour s.tour
    let q := if k.state = .live ∧ k.floor = some s.lang then
        (q.setTour s.tour { k with state := .paused }).raise (.tour s.tour) .state
      else q
    (p.restream q).raise (.tour s.tour) .sources

end Sys2Proof.Machine
end

