-- ==== Sys2Proof/Machine/Notices.lean ====
section
/-! DEFINITION. The notice mechanism (spec 04): raising a notice, where it is homed and placed, how it
moves with its unit, and its ends. -/

namespace Sys2Proof.Machine

/-- The home zones of a notice whose entry has this zone: the zone alone, or every zone that is UP; a
zone that is not UP holds no notice (R74). -/
def Part.homes (p : Part) (zone : Option ZoneNo) : List ZoneNo :=
  allZones.filter fun z => (p.zone z).state == .up && (match zone with | some y => z == y | none => true)

/-- Serving the overflow list: its head moves to the queue's tail while the queue has room (R75). -/
def Zone.serveOverflow (z : Zone) : Zone :=
  let room := Config.noticeQueueSize - z.noticeQueue.length
  { z with noticeQueue := z.noticeQueue ++ z.overflow.take room, overflow := z.overflow.drop room }

/-- A notice newly homed in a zone joins the queue's tail, or the overflow list's (R74). -/
def Zone.placeNotice (z : Zone) (u : UnitId) : Zone :=
  if z.noticeQueue.length < Config.noticeQueueSize then { z with noticeQueue := z.noticeQueue ++ [u] }
  else { z with overflow := z.overflow ++ [u] }

/-- Notices leave a zone's queue and overflow list; when the queue lost one, the list is served
(R75). -/
def Zone.unplaceNotices (z : Zone) (us : List UnitId) : Zone :=
  let y := { z with noticeQueue := z.noticeQueue.filter fun u => !us.contains u
                    overflow := z.overflow.filter fun u => !us.contains u }
  if z.noticeQueue.any us.contains then y.serveOverflow else y

/-- Placing a unit's notice in each of a list of zones. -/
def Part.placeNoticeIn (p : Part) (u : UnitId) (zs : List ZoneNo) : Part :=
  zs.foldl (fun q z => q.modZone z (·.placeNotice u)) p

/-- Taking notices out of each of a list of zones. -/
def Part.unplaceNoticesIn (p : Part) (us : List UnitId) (zs : List ZoneNo) : Part :=
  zs.foldl (fun q z => q.modZone z (·.unplaceNotices us)) p

/-- The entry's zone changed: the notice keeps its place where it is homed before and after, leaves the
other old homes and joins the new ones (R77). -/
def Part.rehomeNotice (p : Part) (u : UnitId) (old new : List ZoneNo) : Part :=
  match (p.entry u).bind (·.notice) with
  | none => p
  | some _ =>
    (p.unplaceNoticesIn [u] (old.filter fun z => !new.contains z)).placeNoticeIn u
      (new.filter fun z => !old.contains z)

/-- The end of one unit's notice apart from its places: a reserving RETUNE releases its claim. With
`release` false the reservation has become an assignment (R16, R82). -/
def Part.clearNotice (p : Part) (release : Bool) (u : UnitId) : Part :=
  match (p.entry u).bind (·.notice) with
  | none => p
  | some n =>
    let p := p.modEntry u fun e => { e with notice := none }
    if release && n.reserving then
      match n.target with
      | some t => p.releaseClaim t.tour
      | none => p
    else p

/-- Notices end SUPERSEDED, CANCELLED or TIMEOUT within one event: claims are released, all leave their
queues, and the lists are then served (R75, R81, R82). -/
def Part.endNotices (p : Part) (us : List UnitId) : Part :=
  let ending := us.filter fun u => ((p.entry u).bind (·.notice)).isSome
  if ending.isEmpty then p
  else (ending.foldl (fun q u => q.clearNotice true u) p).unplaceNoticesIn ending allZones

def Part.endNotice (p : Part) (u : UnitId) : Part := p.endNotices [u]

/-- Raising a notice for an entry, in the steps of R73. Where the superseded notice stood in a full queue whose
overflow list is not empty, the list is served at step 1 (R75), and the new notice finds the queue full and
joins the overflow list at step 5, though check 8 of R83 counted that queue as having room: the model's choice
(log 37). -/
def Part.raiseNotice (p : Part) (u : UnitId) (kind : NoticeKind) (target : Option Tune)
    (reserving : Bool) : Part :=
  let p := p.endNotice u
  let p := if reserving then (match target with | some t => p.takeClaim t.tour | none => p) else p
  match p.entry u with
  | none => p
  | some e =>
    let n : Notice := ⟨kind, target, reserving, e.nextSeq, p.now + 1000 * p.profile.noticeLife, p.now⟩
    (p.modEntry u fun e => { e with notice := some n, nextSeq := e.nextSeq + 1 }).placeNoticeIn u
      (p.homes e.zone)

/-- The units with a pending RETUNE, reserving or repair, that names a tour (R6, R82). -/
def Part.retunesNaming (p : Part) (t : TourNo) : List UnitId :=
  (p.units.filter fun x => match x.2.notice with
    | some n => n.kind == .retune && (n.target.map (·.tour)) == some t
    | none => false).map (·.2.unit)

/-- Whether the notice-to-be of a unit has a home zone whose queue has room (R83, check 8). -/
def Part.noticeRoom (p : Part) (e : Entry) : Bool :=
  (p.homes e.zone).any fun z =>
    (p.zone z).noticeQueue.length < Config.noticeQueueSize || (p.zone z).noticeQueue.contains e.unit

/-- The zones in which a unit's notice is queued (R83), ascending: the model's choice (log 33). -/
def Part.queuedZones (p : Part) (u : UnitId) : List ZoneNo :=
  allZones.filter fun z => (p.zone z).noticeQueue.contains u

/-- The event kind a notice's acknowledgement raises (R85). -/
def NoticeKind.ackEvent : NoticeKind → EventKind
  | .retune => .retuned
  | .untune => .untuned
  | .locate => .located

/-- Keeping a notice's end with the report: one per event kind, the newest first (R85). -/
def noteEnd (x : NoticeEnd) (a : Attached) : Attached :=
  { a with ended := x :: a.ended.filter (·.event != x.event) }

end Sys2Proof.Machine
end

