-- ==== Sys2Proof/Machine/Units.lean ====
section
/-! DEFINITION. The unit table's shared operations (spec 02): assignments, movements between zones,
seats and unseats of entries, eviction, and the taking of status records. -/

namespace Sys2Proof.Machine

/-! ### Assignments and movements (R31, R38) -/

/-- A change of an entry's assignment: its contribution moves in its zone together with the change
(R14, R38). The counts are moved by the event that causes it. -/
def Part.reassign (p : Part) (u : UnitId) (new : Option Tune) : Part :=
  match p.entry u with
  | none => p
  | some e =>
    let q := p.modEntry u fun e => { e with assignment := new }
    match e.airZone with
    | some z => q.moveListener z (p.entryStream e) (q.entryStream { e with assignment := new })
    | none => q

/-- Removing an entry's assignment: its tour's count falls by 1 (R16). -/
def Part.unassign (p : Part) (u : UnitId) : Part :=
  match (p.entry u).bind (·.assignment) with
  | some t => (p.reassign u none).releaseClaim t.tour
  | none => p

/-- An entry leaves a zone: its listener count or its uplink claim there is withdrawn (R31). -/
def Part.leaveZone (p : Part) (e : Entry) (z : ZoneNo) : Part :=
  match e.cls with
  | .listener => p.moveListener z (p.effective e.assignment) none
  | .voice => p.releaseUplink z e.unit

/-- An entry enters a zone: its listener count or, when it is a source, its uplink claim is added
(R31). -/
def Part.enterZone (p : Part) (e : Entry) (z : ZoneNo) : Part :=
  match e.cls with
  | .listener => p.moveListener z none (p.effective e.assignment)
  | .voice =>
    match p.sourceOf e.unit with
    | some s => p.claimUplink z e.unit (p.isFloor s)
    | none => p

/-- What a seat, an eviction, a forget and a retirement all take from an entry: its assignment, its
pending notice and its source standing, each with its effects (R23, R35, R41, R133). -/
def Part.strip (p : Part) (u : UnitId) : Part :=
  ((p.unassign u).endNotice u).withdrawSource u

/-! ### Creation and eviction (R20, R22, R35) -/

/-- The creation values of R20; the retired flag follows the retire list (R22). -/
def Part.newEntry (p : Part) (u : UnitId) (cls : UnitClass) : Entry where
  unit       := u
  cls        := cls
  state      := .docked
  bay        := none
  lastBay    := none
  zone       := none
  quality    := 0
  lastHeard  := p.now
  level      := 0
  assignment := none
  notice     := none
  nextSeq    := 0
  fwRevision := 0
  fwState    := .unknown
  tuned      := false
  faults     := Vector.replicate 6 0
  retired    := p.retireList.contains u
  silence    := none

/-- The SILENT entry with the oldest last heard time, the lowest index first among equals (R25). -/
def Part.oldestSilent (p : Part) : Option (Nat × Entry) :=
  p.units.foldl (fun best x =>
    if x.2.state = .silent then
      match best with
      | none => some x
      | some b => if x.2.lastHeard < b.2.lastHeard then some x else best
    else best) none

/-- Eviction of an entry (R35). -/
def Part.evict (p : Part) (i : Nat) (u : UnitId) : Part :=
  ((p.strip u).removeEntry u).raiseWith (.unit i) .evicted fun a => { a with evicted := some u }

/-- The lowest free place, made by an eviction when there is none; `none` when no entry is SILENT
(R25, R28). -/
def Part.makePlace (p : Part) : Part × Option Nat :=
  match p.freePlace with
  | some i => (p, some i)
  | none =>
    match p.oldestSilent with
    | some x => (p.evict x.1 x.2.unit, some x.1)
    | none => (p, none)

/-! ### Seat and unseat (R23, R25, R26) -/

/-- The seat of a unit in a bay, as the unit table takes it; the Bool tells whether the unit is
listed. -/
def Part.seatUnit (p : Part) (u : UnitId) (cls : UnitClass) (b : BayRef) : Part × Bool :=
  match p.entry u with
  | some _ =>
    let p := p.strip u
    (p.modEntry u fun e =>
      { e with zone := none, silence := none, state := .docked, bay := some b, lastBay := some b,
               retired := e.retired || p.retireList.contains u, cls := cls }, true)
  | none =>
    match p.makePlace with
    | (p, some i) =>
      (p.addEntry i { p.newEntry u cls with bay := some b, lastBay := some b }, true)
    | (p, none) => (p, false)

/-- The disposition handed with an unseat (R185). -/
inductive Disposition where
  | taken (tune : Option Tune)
  | noIssue
deriving DecidableEq, Repr

/-- The unseat of an entry DOCKED at a bay (R26). -/
def Part.unseatUnit (p : Part) (u : UnitId) (b : BayRef) (d : Disposition) : Part :=
  match p.entry u with
  | none => p
  | some e =>
    if e.bay ≠ some b then p
    else
      let tune := match e.cls, d with
        | .listener, .taken t => t
        | _, _ => none
      let q := p.modEntry u fun e =>
        { e with state := .out, bay := none, lastBay := some b, zone := none, lastHeard := p.now,
                 silence := some (p.now + 1000 * p.profile.silenceLimit), assignment := tune }
      match e.cls, d with
      | .listener, .noIssue => q.raiseUnit u .stray fun a => { a with strayFrom := some b }
      | _, _ => q

/-! ### Acknowledgement, adoption and repair (R33, R34, R79, R80) -/

/-- The effect of an accepted acknowledgement on the entry and the counts (R80); the notice has left
the entry. -/
def Part.ackEffect (p : Part) (u : UnitId) (old : Option Tune) (n : Notice) : Part :=
  match n.kind, n.target with
  | .retune, some t =>
    if n.reserving then
      let q := p.reassign u (some t)
      match old with
      | some o => q.releaseClaim o.tour
      | none => q
    else
      match old with
      | some o =>
        if o.tour = t.tour then p.reassign u (some t)
        else if (p.claimCheck t.tour t.lang).isNone then
          ((p.takeClaim t.tour).reassign u (some t)).releaseClaim o.tour
        else p.unassign u
      | none =>
        if (p.claimCheck t.tour t.lang).isNone then (p.takeClaim t.tour).reassign u (some t) else p
  | .untune, _ => p.unassign u
  | _, _ => p

/-- An accepted acknowledgement: its effect, then the notice ends ACKNOWLEDGED and leaves its queues,
and the entry raises its event (R79, R80, R85). -/
def Part.acknowledge (p : Part) (u : UnitId) (n : Notice) : Part :=
  let old := (p.entry u).bind (·.assignment)
  let p := (p.clearNotice false u).ackEffect u old n
  (p.unplaceNoticesIn [u] allZones).raiseUnit u n.kind.ackEvent
    (noteEnd ⟨n.kind.ackEvent, n.kind, n.seq, true⟩)

/-- A reported tune as the part takes it: none when its tour or language is 0 or too large (R27,
check 6). -/
def reportedTune (tour lang : Nat) : Option Tune :=
  match indexField 1 32 (.val tour), indexField 1 16 (.val lang) with
  | some t, some l => some ⟨t, l⟩
  | _, _ => none

/-- Adoption (R33) or tune repair (R34) of a status that accepted no acknowledgement. -/
def Part.takeTune (p : Part) (u : UnitId) (tune : Option Tune) : Part :=
  match p.entry u with
  | none => p
  | some e =>
    if e.cls ≠ .listener ∨ e.notice.isSome then p
    else match e.assignment, tune with
      | none, some t =>
        if e.retired then p
        else if (p.claimCheck t.tour t.lang).isNone then
          ((p.takeClaim t.tour).reassign u (some t)).raiseUnit u .adopted id
        else p
      | some a, t =>
        if t = some a then p
        else if (p.tour a.tour).state.open then p.raiseNotice u .retune (some a) false
        else p
      | none, none => p

/-- The contents of a status taken into an entry: its acknowledgement first, and only when none was
accepted its tune (R30). -/
def Part.takeContents (p : Part) (u : UnitId) (st : StatusRecord) : Part :=
  match (p.entry u).bind (·.notice) with
  | some n => if st.ack = some n.seq then p.acknowledge u n else p.takeTune u (reportedTune st.tour st.lang)
  | none => p.takeTune u (reportedTune st.tour st.lang)

/-! ### Status records (R27 to R30) -/

/-- A status from a unit without an entry (R28). -/
def Part.foundStatus (p : Part) (z : ZoneNo) (st : StatusRecord) : Part :=
  match p.makePlace with
  | (p, none) => p
  | (p, some i) =>
    let e := { p.newEntry st.unit st.cls with
      state := .onAir, zone := some z, quality := st.quality, level := st.level,
      silence := some (p.now + 1000 * p.profile.silenceLimit) }
    let p := (p.addEntry i e).raise (.unit i) .found
    (p.enterZone e z).takeContents st.unit st

/-- Whether the zone choice rule takes a status (R29). -/
def Part.zoneChoice (p : Part) (e : Entry) (z : ZoneNo) (quality : Nat) : Bool :=
  match e.zone with
  | none => true
  | some y => y == z || e.quality + p.profile.zoneMargin < quality ||
      1000 * p.profile.zoneStale < p.now - e.lastHeard

/-- A status the zone choice rule takes (R30). -/
def Part.takeStatus (p : Part) (e : Entry) (z : ZoneNo) (st : StatusRecord) : Part :=
  let u := e.unit
  let q := p.modEntry u fun e =>
    { e with state := .onAir, level := st.level, quality := st.quality, lastHeard := p.now,
             silence := some (p.now + 1000 * p.profile.silenceLimit), zone := some z }
  let q := if e.airZone = some z then q
    else
      let q := match e.airZone with | some y => q.leaveZone e y | none => q
      (q.enterZone e z).rehomeNotice u (p.homes e.zone) (p.homes (some z))
  q.takeContents u st

/-- A status record handed from a cycle mark, checked in the order of R27. -/
def Part.statusRecord (p : Part) (z : ZoneNo) (st : StatusRecord) : Part :=
  if !validUnit st.unit then p
  else if p.unlistedIn st.unit then p
  else match p.entry st.unit with
    | none => p.foundStatus z st
    | some e =>
      if e.state = .docked then p
      else if e.cls ≠ st.cls then p
      else if p.zoneChoice e z st.quality then p.takeStatus e z st
      else p.modEntry st.unit fun e =>
        { e with level := st.level, silence := some (p.now + 1000 * p.profile.silenceLimit) }

/-! ### Zone teardown, as the unit table takes it (R36) -/

/-- Clearing the zone of every entry whose zone it is; their notices are homed in every zone still UP
(R36, R78). -/
def Part.clearZone (p : Part) (z : ZoneNo) : Part :=
  let there := (p.units.filter fun x => x.2.zone == some z).map (·.2.unit)
  there.foldl (fun q u =>
    (q.modEntry u fun e => { e with zone := none }).rehomeNotice u [] (q.homes none)) p

end Sys2Proof.Machine
end

