-- ==== Sys2Proof/Machine/House.lean ====
section
/-! DEFINITION. The house controller (spec 05): the taking of AUDIO frames, the advance, the frames
supplied to house track carriages, and the start, change and stop of a program. -/

namespace Sys2Proof.Machine

/-- The most a track counter shows (R86). -/
def trackCounterMax : Nat := 65535

/-- A track counter rises by 1 and is held at its maximum (R86). -/
def countUp (n : Nat) : Nat := min (n + 1) trackCounterMax

/-- Whether a zone is covered (R86). -/
def House.covers (h : House) (z : ZoneNo) : Bool := h.running && h.zones.contains z

/-- An AUDIO frame joins its track's buffer, the oldest frame leaving a full one (R92). -/
def Track.receive (k : Track) (a : Audio) : Track :=
  if k.buffer.length < Config.houseBuffer then
    { k with buffer := k.buffer ++ [a], received := countUp k.received }
  else
    { k with buffer := k.buffer.drop 1 ++ [a], received := countUp k.received
             replaced := countUp k.replaced }

/-- Changing the track at a place of the track list. -/
def modTrack (f : Track → Track) : Nat → List Track → List Track
  | _, [] => []
  | 0, k :: ks => f k :: ks
  | n + 1, k :: ks => k :: modTrack f n ks

/-- An AUDIO frame handed to the house controller (R92): discarded while IDLE or for a track the
program has not. -/
def House.audio (h : House) (track : Byte) (a : Audio) : House :=
  if h.running && decide (1 ≤ track.toNat) then
    { h with tracks := modTrack (·.receive a) (track.toNat - 1) h.tracks }
  else h

/-- One track's advance (R93). -/
def Track.advance (k : Track) : Track :=
  match k.buffer with
  | a :: rest => { k with buffer := rest, current := some a, serial := k.serial + 1 }
  | [] => { k with current := none, starved := countUp k.starved }

/-- Whether an advance starves a track whose previous advance took a frame (R93, R97). -/
def Track.starves (k : Track) : Bool := k.buffer.isEmpty && k.current.isSome

/-- The advance, made by the first boundary of a covered UP zone while advance due is set (R93). -/
def Part.houseAdvance (p : Part) : Part :=
  let h := p.house
  let q := { p with house := { h with tracks := h.tracks.map Track.advance, advanceDue := false } }
  if h.tracks.any Track.starves then q.raise .system .starved else q

/-- The frame supplied to a house track carriage and the last frame it keeps (R94). -/
def House.supply (h : House) (k : TrackNo) (last : Option Nat) : SlotFrame × Option Nat :=
  match h.tracks[k.val]? with
  | none => (.silence, last)
  | some t =>
    match t.current with
    | none => (.silence, last)
    | some a => if last = some t.serial.toNat then (.silence, last) else (.house a, some t.serial.toNat)

/-- The track numbers of the program, in track order. -/
def House.trackNos (h : House) : List TrackNo :=
  (List.finRange 4).filter fun k => decide (k.val < h.tracks.length)

/-- The zones of a list that are UP. -/
def Part.upZones (p : Part) (zs : List ZoneNo) : List ZoneNo := zs.filter fun z => (p.zone z).state == .up

/-- Handing a zone one claim per track, in track order (R59, R88, R95). -/
def Part.handTracks (p : Part) (z : ZoneNo) : Part := p.claimTracks z p.house.trackNos

/-- HOUSE_START carried out (R88). -/
def Part.houseStart (p : Part) (zs : List ZoneNo) (ls : List LangNo) : Part :=
  let q := { p with house := ⟨true, zs, ls.map fun l => ⟨l, [], none, 0, 0, 0, 0⟩, true,
                              some (p.now + Config.housePeriod)⟩ }
  (zs.foldl (fun q z => q.handTracks z) q).raise .system .house

/-- HOUSE_ZONES carried out (R89). -/
def Part.houseZones (p : Part) (zs : List ZoneNo) : Part :=
  let old := p.house.zones
  if zs = old then p
  else
    let q := { p with house := { p.house with zones := zs } }
    let q := (old.filter fun z => !zs.contains z).foldl (fun q z => q.releaseTracks z) q
    let q := (zs.filter fun z => !old.contains z).foldl (fun q z => q.handTracks z) q
    q.raise .system .house

/-- HOUSE_STOP carried out (R90). -/
def Part.houseStop (p : Part) : Part :=
  let q := p.house.zones.foldl (fun q z => q.releaseTracks z) p
  ({ q with house := House.idle } : Part).raise .system .house

end Sys2Proof.Machine
end

