-- ==== Sys2Proof/Machine/Boundary.lean ====
section
/-! DEFINITION. A zone's boundary, the plan it publishes, and the zone's teardown and return (R46 to R53,
R61, R62, R65, R66, R76, R91). -/

namespace Sys2Proof.Machine

/-! ### The published plan -/

/-- Keeping the first item of each tag (R46). -/
def firstPerTag {α : Type} (tag : α → Nat) : List α → List Nat → List α
  | [], _ => []
  | x :: xs, seen =>
    if seen.contains (tag x) then firstPerTag tag xs seen
    else x :: firstPerTag tag xs (tag x :: seen)

/-- The voice packets of a mark that are taken: tagged 15 to 21, the first of each tag (R46). -/
def takenPackets (m : CycleMark) : List VoicePacket :=
  firstPerTag (·.slot) (m.packets.filter fun v => 15 ≤ v.slot && v.slot ≤ 21) []

/-- The status records of a mark that are taken: tagged 22 or 23, the first of each tag (R46). -/
def takenStatuses (m : CycleMark) : List StatusRecord :=
  firstPerTag (·.slot) (m.statuses.filter fun v => v.slot == 22 || v.slot == 23) []

/-- Filing one voice packet against the published plan still in force (R61). -/
def Part.filePacket (p : Part) (z : ZoneNo) (v : VoicePacket) : Part :=
  match (p.zone z).plan with
  | none => p
  | some plan =>
    match plan.beacon.uplinkMap.find? (·.1 == v.slot) with
    | none => p
    | some (_, u) =>
      match p.sourceOf u with
      | none => p
      | some t =>
        if (p.zone z).soundingSet.contains t then { p with frames := p.frames.file t v.audio } else p

/-- The order of tour streams: by tour, then by language. -/
def tuneBefore (a b : Tune) : Bool :=
  a.tour < b.tour || (a.tour == b.tour && a.lang < b.lang)

/-- Listing a directory entry in the directory's order (R53). -/
def insertDir (d : DirEntry) : List DirEntry → List DirEntry
  | [] => [d]
  | x :: xs => if tuneBefore d.stream x.stream then d :: x :: xs else x :: insertDir d xs

/-- The form of a tour carriage's directory entry (R53). -/
def Part.dirForm (p : Part) (x : Zone) (c : Carriage) (t : Tune) : DirForm :=
  match c.slot with
  | some k => .carried k
  | none =>
    match (p.tour t.tour).floor.bind fun l => (x.carriage (.tour ⟨t.tour, l⟩)).bind (·.slot) with
    | some k => .fallback k
    | none => .uncarried

/-- The directory of a zone's working plan (R53). -/
def Part.directory (p : Part) (x : Zone) : List DirEntry :=
  x.carriages.foldl (fun acc c =>
    match c.stream with
    | .tour t => insertDir ⟨t, p.dirForm x c t⟩ acc
    | .house _ => acc) []

/-- The uplink slots that hold a unit, in slot order (R52). -/
def Zone.uplinkMap (x : Zone) : List (Nat × UnitId) :=
  (List.finRange 7).filterMap fun i => x.uplink[i].map fun u => (Config.firstUplink + i.val, u)

/-- The slots that hold a carriage, in slot order (R50). -/
def Zone.holders (x : Zone) : List (Nat × Carriage) :=
  Config.downSlots.filterMap fun k => (x.holder k).map fun c => (k, c)

/-- The house section of a covered zone's beacon: one item per track, in track order, track 1 marked as
the default (R91). -/
def Part.houseSection (p : Part) (z : ZoneNo) : List HouseItem :=
  if p.house.covers z then
    p.house.trackNos.filterMap fun k =>
      p.house.tracks[k.val]?.map fun t =>
        ⟨k, t.lang, ((p.zone z).carriage (.house k)).bind (·.slot), k == 0⟩
  else []

/-- The notices a beacon carries: the first four of the queue (R76). -/
def Part.beaconNotices (p : Part) (x : Zone) : List BeaconNotice :=
  (x.noticeQueue.take Config.beaconNotices).filterMap fun u =>
    ((p.entry u).bind (·.notice)).map fun n => ⟨u, n.kind, n.seq, n.target⟩

/-- The entries carried move from the head of the queue to its tail (R76). -/
def Zone.rotateNotices (x : Zone) : Zone :=
  { x with noticeQueue := x.noticeQueue.drop Config.beaconNotices ++ x.noticeQueue.take Config.beaconNotices }

/-- The frame chosen for a placed carriage and the last frame it keeps (R62, R94). -/
def Part.chooseFrame (p : Part) (x : Zone) (c : Carriage) : SlotFrame × Option Nat :=
  match c.stream with
  | .house k => p.house.supply k c.lastFrame
  | .tour t =>
    if x.soundingSet.contains t then
      match p.frames.frame t with
      | some f =>
        if c.lastFrame = some f.serial.toNat then (.silence, c.lastFrame)
        else (.voice f.audio, some f.serial.toNat)
      | none => (.silence, c.lastFrame)
    else (.silence, c.lastFrame)

/-- The beacon of a boundary (R52). -/
def Part.beacon (p : Part) (z : ZoneNo) (cycle : BitVec 16) (revision : BitVec 8)
    (directory : List DirEntry) : Beacon :=
  let x := p.zone z
  { zone := z, cycle := cycle, revision := revision, directory := directory
    uplinkMap := x.uplinkMap
    closing := allTours.filter (x.closingSet.contains ·)
    house := p.houseSection z
    notices := p.beaconNotices x }

/-- Steps 3 and 4 of R51: the working plan is published with its audio and sent. -/
def Part.publish (p : Part) (z : ZoneNo) (cycle : BitVec 16) : Part :=
  let x := p.zone z
  let dir := p.directory x
  let rev := if dir = x.lastDirectory then x.revision else x.revision + 1
  let plan : Plan :=
    { holders := x.holders.map fun h => (h.1, h.2.stream)
      beacon := p.beacon z (cycle + 1) rev dir
      audio := x.holders.map fun h => (h.1, (p.chooseFrame x h.2).1) }
  let carriages := x.carriages.map fun c =>
    if c.slot.isSome then { c with lastFrame := (p.chooseFrame x c).2 } else c
  p.setZone z
    { x.rotateNotices with
      carriages := carriages, plan := some plan, lastDirectory := dir, revision := rev
      sent := some (.cyclePlan plan) }

/-! ### The boundary (R51) -/

/-- The largest cycle count (R45). -/
def cycleCountMax : Nat := 4294967295

/-- Step 1: the down timer restarts, the cycle number is recorded, the cycle count rises by 1; past its
end it takes a free value (log 17). -/
def Part.markTaken (p : Part) (z : ZoneNo) (cycle : BitVec 16) : Part :=
  let x := { p.zone z with downTimer := some (p.now + Config.downTime), cycleNumber := cycle }
  if x.cycleCount < cycleCountMax then p.setZone z { x with cycleCount := x.cycleCount + 1 }
  else (p.setZone z { x with cycleCount := (Config.cycleCountPastEnd p.freeCount).toNat }).stepFree

/-- A CYCLE_MARK taken by an UP zone (R51). -/
def Part.boundary (p : Part) (z : ZoneNo) (m : CycleMark) : Part :=
  let p := p.markTaken z m.cycle
  let p := (takenPackets m).foldl (fun q v => q.filePacket z v) p
  let p := if p.house.covers z && p.house.advanceDue then p.houseAdvance else p
  let p := p.publish z m.cycle
  let p := p.modZone z Zone.countLinger
  (takenStatuses m).foldl (fun q st => q.statusRecord z st) p

/-! ### Teardown and return (R47, R65, R66) -/

/-- A zone is torn down and left in a state that is not UP (R65). -/
def Part.teardownZone (p : Part) (z : ZoneNo) (state : ZoneState) : Part :=
  let x := p.zone z
  let q := p.setZone z
    { x with
      state := state, downTimer := none, carriages := [], waitQueue := []
      uplink := Vector.replicate 7 none, uplinkQueue := [], plan := none, lastDirectory := []
      noticeQueue := [], overflow := [] }
  (q.clearZone z).raise (.zone z) .zoneDown

/-- Whether a notice was raised before another, the lower table index first among equals (R78). -/
def raisedBefore (a b : Nat × UnitId × Notice) : Bool :=
  a.2.2.raised < b.2.2.raised || (a.2.2.raised == b.2.2.raised && a.1 < b.1)

def insertByRaised (a : Nat × UnitId × Notice) : List (Nat × UnitId × Notice) → List (Nat × UnitId × Notice)
  | [] => [a]
  | b :: bs => if raisedBefore a b then a :: b :: bs else b :: insertByRaised a bs

/-- The units without a zone whose notice is pending, oldest notice first (R78). -/
def Part.zonelessNotices (p : Part) : List UnitId :=
  (p.units.foldl (fun acc x =>
    match x.2.zone, x.2.notice with
    | none, some n => insertByRaised (x.1, x.2.unit, n) acc
    | _, _ => acc) []).map (·.2.1)

/-- ZONE_SETUP as the working profile stands (R49). -/
def Part.zoneSetup (p : Part) (z : ZoneNo) : ZoneMessage :=
  .zoneSetup z p.profile.zones[z].label p.profile.zones[z].carrier

/-- A zone comes UP (R66, R78). -/
def Part.zoneUp (p : Part) (z : ZoneNo) : Part :=
  let p := p.modZone z fun x =>
    { x with sent := some (p.zoneSetup z), state := .up, cycleCount := 0
             downTimer := some (p.now + Config.downTime) }
  let p := if p.house.covers z then p.handTracks z else p
  let p := p.zonelessNotices.foldl (fun q u => q.modZone z (·.placeNotice u)) p
  p.raise (.zone z) .zoneUp

/-- A HELLO from a head (R47). -/
def Part.zoneHello (p : Part) (z : ZoneNo) : Part :=
  match (p.zone z).state with
  | .disabled => p
  | .down => p.zoneUp z
  | .up => (p.teardownZone z .down).zoneUp z

/-- The profile disables or enables a zone (R47). -/
def Part.enableZone (p : Part) (z : ZoneNo) (on : Bool) : Part :=
  match (p.zone z).state, on with
  | .up, false => p.teardownZone z .disabled
  | .down, false => p.modZone z fun x => { x with state := .disabled }
  | .disabled, true => p.modZone z fun x => { x with state := .down }
  | _, _ => p

end Sys2Proof.Machine
end

