-- ==== Sys2Proof/Machine/Bays.lean ====
section
/-! DEFINITION. The bay-side operations other blocks share (spec 06 sections 6.3 to 6.5, spec 08): the
ready standing, charge orders, the halting and ending of sessions, displays, and the joining and
dispatch of jobs (spec 09 sections 9.2, 9.3). -/

namespace Sys2Proof.Machine

/-! ### Ready standing (R115, R116) -/

/-- Evaluating a bay's ready standing: its unit joins the tail of the ready queue or leaves it. -/
def Part.readyEval (p : Part) (b : BayRef) : Part :=
  let k := p.rack b.rack
  if p.readyHolds b then
    if k.ready.contains b.no then p else p.setRack b.rack { k with ready := k.ready ++ [b.no] }
  else p.setRack b.rack { k with ready := k.ready.filter (· != b.no) }

/-- The bays of every ONLINE rack, racks and bays ascending. -/
def Part.onlineBays (p : Part) : List BayRef :=
  allBays.filter fun b => (p.rack b.rack).state == .online && p.present b

/-- A change of ready_level: every occupied bay of every ONLINE rack; all that fail leave first, then
those that newly qualify join (R116). -/
def Part.readyEvalAll (p : Part) : Part :=
  let bs := p.onlineBays
  let q := (bs.filter fun b => !p.readyHolds b).foldl Part.readyEval p
  (bs.filter fun b => p.readyHolds b).foldl Part.readyEval q

/-! ### Orders and sessions (R101, R111 to R114) -/

/-- A charge order, set while the bay's rack is ONLINE (R109, R114; log 26). -/
def Part.orderCharge (p : Part) (b : BayRef) (on : Bool) : Part :=
  if (p.rack b.rack).state == .online then
    p.modBay b fun y => { y with chargeOrder := some ⟨on, false⟩ }
  else p

/-- A fault or a retirement halts a session that charges or is topped (R114, R123, R124). -/
def Part.haltSession (p : Part) (b : BayRef) : Part :=
  match (p.bay b).session with
  | .charging | .topped =>
    (p.modBay b fun y => { y with session := .halted, watch := none, weak := .done }).orderCharge b false
  | _ => p

/-- A session ends: NONE, its charge watch stopped and its weak check DONE (R114, R123, R124). -/
def Part.endSession (p : Part) (b : BayRef) : Part :=
  (p.modBay b fun y => { y with session := .none, watch := none, weak := .done }).orderCharge b false

/-- A session reaches TOPPED (R113, R129). -/
def Part.topSession (p : Part) (b : BayRef) : Part :=
  ((p.modBay b fun y =>
    { y with session := .topped, watch := none, weak := .done, strikes := 0 }).orderCharge b false).raise
      (.bay b) .topped

/-! ### Displays (R143) -/

/-- Recomputing a bay's display; one that differs from the ordered display is ordered while the rack is
ONLINE. -/
def Part.refreshDisplay (p : Part) (b : BayRef) : Part :=
  let d := p.displayOf b
  let y := p.bay b
  if d = y.ordered then (if d = y.display then p else p.setBay b { y with display := d })
  else if (p.rack b.rack).state == .online then
    p.setBay b { y with display := d, ordered := d, displayOrder := some ⟨d, false⟩ }
  else p.setBay b { y with display := d }

/-- The displays an event leaves, recomputed when it has made all its changes (R143). -/
def Part.refreshDisplays (p : Part) : Part := p.onlineBays.foldl Part.refreshDisplay p

/-- The display of a bay at its rack's completed attach: ordered whether or not it differs (R143). -/
def Part.orderDisplay (p : Part) (b : BayRef) : Part :=
  let d := p.displayOf b
  p.modBay b fun y => { y with display := d, ordered := d, displayOrder := some ⟨d, false⟩ }

/-! ### Jobs: numbers, queue, transactions (R149, R152, R157) -/

/-- The number after one, 255 being followed by 1 (R149). -/
def numberAfter (n : Nat) : Nat := n % 255 + 1

/-- The first number from `n` on, at most `fuel` steps away, that no job holds (R149). -/
def freeNumber (used : List Nat) : Nat → Nat → Nat
  | 0, n => n
  | fuel + 1, n => if used.contains n then freeNumber used fuel (numberAfter n) else n

/-- The number the next job takes (R149). -/
def Part.nextNumber (p : Part) : Nat :=
  freeNumber (p.jobs.map (·.number)) 255 (numberAfter p.lastJobNumber)

/-- The work total of a job (R162 to R166). -/
def Part.workTotal (p : Part) : JobWork → Nat
  | .identify => 1
  | .tune _ => 1
  | .refresh s => (p.slot s).pages
  | .maintRead _ _ n => n
  | .maintWrite _ _ _ => 1
  | .maintErase _ _ n => n

/-- A new transaction of a channel becomes its waiting request, with the channel's serial (R157). -/
def Part.prepareTx (p : Part) (c : ChannelNo) (dock : Dock) (addr : Option Nat) : Part :=
  p.modChannel c fun h =>
    { h with tx := some ⟨dock, addr, h.serial, 1, .waiting⟩, serial := h.serial + 1 }

/-- The job the dispatch arbiter takes: the first URGENT job, or the first job (R154). -/
def firstToDispatch (q : List Job) : Option Job :=
  match q.find? (·.work.urgent) with
  | some j => some j
  | none => q.head?

/-- A job leaves the queue for a channel and starts its IDENT phase (R154); a MAINT_WRITE fills the
staging page with its data (R166). -/
def Part.dispatchTo (p : Part) (c : ChannelNo) (j : Job) : Part :=
  let q := { p with queue := p.queue.filter (·.number != j.number) }
  let k := { j with started := some p.now, phase := some .ident }
  let q := q.modChannel c fun h =>
    { h with
      state := .running, active := some k
      staging := match j.work with
        | .maintWrite _ a d => some ⟨d, j.number, .maintWrite, a⟩
        | _ => h.staging }
  q.prepareTx c .identRead none

/-- One channel, if IDLE, takes a job. -/
def Part.dispatchChannel (p : Part) (c : ChannelNo) : Part :=
  if (p.channel c).state == .idle then
    match firstToDispatch p.queue with
    | some j => p.dispatchTo c j
    | none => p
  else p

/-- The dispatch arbiter: the IDLE channels, ascending, while the queue is not empty (R154). -/
def Part.dispatch (p : Part) : Part := allChannels.foldl Part.dispatchChannel p

/-- A job joins the queue's tail and is bound to its bay; the arbiter acts at once (R149, R150, R152,
R154). -/
def Part.joinQueue (p : Part) (b : BayRef) (u : UnitId) (work : JobWork) : Part :=
  let n := p.nextNumber
  let q := p.queue ++ [⟨n, work, b, u, none, 0, p.workTotal work, 0, none, none⟩]
  let p := { p with queue := q, lastJobNumber := n, peakQueue := max p.peakQueue q.length }
  ((p.modBay b fun y => { y with job := some n }).readyEval b).dispatch

/-! ### Waiting work of bays (R151, R152) -/

/-- The next work of a bay without a bound job, with the mark or need it takes away (R151). -/
def Part.nextWork (p : Part) (b : BayRef) : Option (JobWork × (Bay → Bay)) :=
  let y := p.bay b
  if y.identifyOwed then some (.identify, fun y => { y with identifyOwed := false })
  else if y.needUntune then some (.tune none, fun y => { y with needUntune := false })
  else if y.needRefresh then
    match p.occupantEntry b with
    | some e =>
      if (p.slot e.cls).isSealed then some (.refresh e.cls, fun y => { y with needRefresh := false })
      else none
    | none => none
  else none

/-- Trying a bay's next work: queued when the queue has room (R151). -/
def Part.tryWork (p : Part) (b : BayRef) : Part :=
  match (p.bay b).job, p.listedIn b with
  | none, some u =>
    if p.queue.length < Config.queueSize then
      match p.nextWork b with
      | some w => (p.modBay b w.2).joinQueue b u w.1
      | none => p
    else p
  | _, _ => p

/-- Serving the waiting work of the bays, racks and bays ascending (R152). -/
def Part.serveBays (p : Part) : Part := allBays.foldl Part.tryWork p

/-- An IDENTIFY request (R151). -/
def Part.requestIdentify (p : Part) (b : BayRef) : Part :=
  match p.listedIn b with
  | some _ => (p.modBay b fun y => { y with identifyOwed := true }).tryWork b
  | none => p

/-- Whether a need handed to the bay joins its needs set (R151). -/
def Part.needTaken (p : Part) (b : BayRef) : Bool :=
  p.bayState b == .occupied && (p.listedIn b).isSome && (p.bay b).fault.isNone

/-- An UNTUNE need, without the trying of work. -/
def Part.addUntune (p : Part) (b : BayRef) : Part :=
  if p.needTaken b then (p.modBay b fun y => { y with needUntune := true }).readyEval b else p

/-- A REFRESH need, without the trying of work. -/
def Part.addRefresh (p : Part) (b : BayRef) : Part :=
  if p.needTaken b then (p.modBay b fun y => { y with needRefresh := true }).readyEval b else p

/-- The needs set and the identify owed mark are emptied (R150). -/
def Part.emptyNeeds (p : Part) (b : BayRef) : Part :=
  p.modBay b fun y => { y with needUntune := false, needRefresh := false, identifyOwed := false }

/-! ### Session start (R111) -/

/-- What a session start decides: the session and whether an IDENTIFY is requested (R111). -/
def Part.sessionChoice (p : Part) (b : BayRef) : Session × Bool :=
  let y := p.bay b
  if !y.enable then (.none, false)
  else if y.fault.isSome then (.halted, false)
  else match p.listedIn b with
    | none => (.charging, false)
    | some u =>
      if (match p.entry u with | some e => e.retired | none => false) then (.halted, false)
      else (.charging, true)

/-- A session starts (R111); one that charges starts the charge watch and the weak check (R123,
R124). A session that starts HALTED or NONE takes no session start, level at start or bounces of its own: what
the bay holds of them stays, the model's choice (R106; log 41). -/
def Part.sessionStart (p : Part) (b : BayRef) : Part :=
  let s := p.sessionChoice b
  let p := p.modBay b fun y => { y with identified := false, session := s.1 }
  let p := match s.1 with
    | .charging =>
      (p.modBay b fun y =>
        { y with sessionStart := some p.now, startLevel := none, bounces := 0
                 watch := some (p.now + 60000 * p.profile.chargeLimit)
                 weak := .pending p.profile.weakWindow }).orderCharge b true
    | _ => p.orderCharge b false
  let p := p.readyEval b
  if s.2 then p.requestIdentify b else p

end Sys2Proof.Machine
end

