-- ==== Sys2Proof/Machine/Issues.lean ====
section
/-! DEFINITION. The issue records' shared operations (spec 10): entering PICKING, and the settlement of a
record apart from the withdrawal of its TUNE, which the engine makes between its two halves. -/

namespace Sys2Proof.Machine

/-- The final outcome of a record (R181). -/
inductive Outcome where
  | taken
  | expired
  | failed (r : IssueReason)
  | cancelled
deriving DecidableEq, Repr

def Outcome.state : Outcome → IssueState
  | .taken => .taken
  | .expired => .expired
  | .failed _ => .failed
  | .cancelled => .cancelled

def Outcome.reason : Outcome → Option IssueReason
  | .failed r => some r
  | _ => none

/-- The event kind of a final state (R190). -/
def Outcome.event : Outcome → EventKind
  | .taken => .taken
  | .expired => .expired
  | .failed _ => .failed
  | .cancelled => .cancelled

/-- The event kind of a final state a record holds (R188). -/
def IssueState.event : IssueState → Option EventKind
  | .taken => some .taken
  | .expired => some .expired
  | .failed => some .failed
  | .cancelled => some .cancelled
  | _ => none

/-- Outcomes that withdraw the TUNE of a record leaving TUNING (R181, step 3). -/
def Outcome.withdraws : Outcome → Bool
  | .failed .timeout | .failed .retired | .cancelled => true
  | _ => false

/-- Whether an outcome hands an UNTUNE need, from the record as it stood (R181, step 5). -/
def Outcome.untunes (o : Outcome) (x : Issue) : Bool :=
  match o with
  | .expired => x.cls == some .listener
  | .failed .timeout => true
  | .cancelled => x.tuned
  | _ => false

/-- The mark the issue controller keeps on a bay (R144). -/
def Part.setPickMark (p : Part) (b : BayRef) (on : Bool) : Part :=
  p.modBay b fun y => { y with pickMark := on }

/-- A record enters PICKING (R184). -/
def Part.enterPicking (p : Part) (n : IssueNo) : Part :=
  let x := p.issue n
  let q := p.setIssue n
    { x with state := .picking, pickAt := some p.now, limit := none
             pick := some (p.now + 1000 * p.profile.pickTime) }
  let q := match x.bay with | some b => q.setPickMark b true | none => q
  q.raise (.issue n) .picking

/-- Steps 1 and 2 of a settlement (R181). -/
def Part.settleBegin (p : Part) (n : IssueNo) (o : Outcome) : Part :=
  let x := p.issue n
  let q := p.setIssue n
    { x with state := o.state, reason := o.reason, endAt := some p.now, limit := none, pick := none }
  match x.state, x.bay with
  | .picking, some b => q.setPickMark b false
  | _, _ => q

/-- Freeing a record (R188). -/
def Part.freeIssue (p : Part) (n : IssueNo) : Part := p.setIssue n Issue.free

/-- Steps 4 to 7 of a settlement, from the record `x` as it stood before it (R181), and the freeing of a
record whose final state's kind is disabled (R188). -/
def Part.settleEnd (p : Part) (n : IssueNo) (o : Outcome) (x : Issue) : Part :=
  let p := match o, x.tune with
    | .taken, _ => p
    | _, some t => p.releaseClaim t.tour
    | _, none => p
  let p := match x.bay with
    | some b => ((if o.untunes x then (p.addUntune b).tryWork b else p)).readyEval b
    | none => p
  let p := p.raise (.issue n) o.event
  if p.profile.disabledKinds.contains o.event then p.freeIssue n else p

/-- A settlement that withdraws no TUNE (R181). -/
def Part.settlePlain (p : Part) (n : IssueNo) (o : Outcome) : Part :=
  (p.settleBegin n o).settleEnd n o (p.issue n)

/-- The TUNING record whose TUNE has a number (R182). -/
def Part.tuningRecord (p : Part) (number : Nat) : Option IssueNo :=
  allIssues.find? fun n => (p.issue n).state == .tuning && ((p.issue n).job.map (·.1)) == some number

/-- The end of a TUNE the issue controller requested (R182). -/
def Part.tuneEnded (p : Part) (number : Nat) (r : JobResult) : Part :=
  match p.tuningRecord number with
  | none => p
  | some n =>
    let p := p.modIssue n fun x => { x with job := some (number, some r) }
    match r with
    | .done => (p.modIssue n fun x => { x with tuned := true }).enterPicking n
    | .aborted .rackLost => p.settlePlain n (.failed .rackLost)
    | _ => p.settlePlain n (.failed .job)

/-- The records in progress that satisfy a test, ascending. -/
def Part.issuesWhere (p : Part) (f : Issue → Bool) : List IssueNo :=
  allIssues.filter fun n => (p.issue n).state.inProgress && f (p.issue n)

end Sys2Proof.Machine
end

