-- ==== Sys2Proof/Machine/Engine.lean ====
section
/-! DEFINITION. The provisioning engine's shared operations (spec 09): reads of the image store, the
area check, the end of a job, the jobs' steps, the serving of channels and the judging of yields. -/

namespace Sys2Proof.Machine

/-! ### The image store (R173, R201) -/

/-- Bits set in the low 64 bits. -/
def bitCount (n : Nat) : Nat := (List.range 64).countP fun i => n.testBit i

/-- Byte `i` of a 64-bit mask, bits 8i to 8i + 7 (log 18). -/
def maskByte (m : BitVec 64) (i : Nat) : Byte := (m >>> (8 * i)).setWidth 8

/-- The stored bits of a word that differ from what was written (R201; log 18). -/
def Nv.mask (nv : Nv) (w : StoreWord) : BitVec 64 :=
  match nv.upsets.find? (·.word == w) with
  | some u => u.mask
  | none => 0

/-- Whether a word read is corrected: exactly one bit in error (R201). -/
def Nv.corrects (nv : Nv) (w : StoreWord) : Bool := bitCount (nv.mask w).toNat == 1

/-- Whether a word read is passed on uncorrected (R201). -/
def Nv.corrupts (nv : Nv) (w : StoreWord) : Bool := decide (2 ≤ bitCount (nv.mask w).toNat)

/-- A page of an image as a read returns it, and whether the read corrected a word (R201). -/
def Nv.readPage (nv : Nv) (s : UnitClass) (n : Nat) : List Byte × Bool :=
  let bytes := (nv.image s).page n
  if (List.range 32).any fun k => nv.mask (.image s n k) != 0 then
    (bytes.mapIdx fun i v =>
      let w := StoreWord.image s n (i / 8)
      if nv.corrupts w then v ^^^ maskByte (nv.mask w) (i % 8) else v,
     (List.range 32).any fun k => nv.corrects (.image s n k))
  else (bytes, false)

/-- A correction sets the corrected flag (R201). -/
def Part.noteCorrection (p : Part) (c : Bool) : Part :=
  if c then { p with store := { p.store with corrected := true } } else p

/-- One bit of the image check: the register shifts right, the generator 04C11DB7 with its bits
reversed (R173). That the register is the reflected one, its value read unreversed, is the model's
choice (log 35). -/
def checkBit (r : BitVec 32) : BitVec 32 :=
  if r.getLsbD 0 then (r >>> 1) ^^^ 0xEDB88320#32 else r >>> 1

/-- One byte of the image check, least significant bit first (R173). -/
def checkByte (r : BitVec 32) (v : Byte) : BitVec 32 :=
  checkBit (checkBit (checkBit (checkBit (checkBit (checkBit (checkBit (checkBit
    (r ^^^ v.setWidth 32))))))))

/-- The check of a run of bytes: all ones at the start, inverted at the end (R173). -/
def imageCheck (l : List Byte) : BitVec 32 := ~~~ (l.foldl checkByte 0xFFFFFFFF#32)

/-- The check of an image over its first pages as reads return them, and whether a read corrected a
word (R173, R175). -/
def Nv.imageCheck (nv : Nv) (s : UnitClass) (pages : Nat) : BitVec 32 × Bool :=
  let r := (List.range pages).foldl (fun (acc : BitVec 32 × Bool) n =>
    let x := nv.readPage s n
    (x.1.foldl checkByte acc.1, acc.2 || x.2)) (0xFFFFFFFF#32, false)
  (~~~ r.1, r.2)

/-! ### The ident record (R159, R160) -/

/-- A 16-bit field, most significant byte first. -/
def be16 (a b : Byte) : BitVec 16 := a ++ b

/-- The ident record of 21 bytes; `none` for another length (R159). -/
def parseIdent : List Byte → Option Ident
  | [u0, u1, u2, u3, c, h, f0, f1, fs, b0, b1, p0, p1, n0, n1, t0, t1, tt, tl, r0, r1] =>
    some { unit := (u0 ++ u1 ++ u2 ++ u3 : BitVec 32), cls := c, hardware := h, fw := be16 f0 f1
           fwState := fs, bootPages := (be16 b0 b1).toNat, fwBase := (be16 p0 p1).toNat
           fwPages := (be16 n0 n1).toNat, tunePage := (be16 t0 t1).toNat, tuneTour := tt.toNat
           tuneLang := tl.toNat, tuneRev := be16 r0 r1 }
  | _ => none

/-- The class a class byte names (R159). -/
def Ident.unitClass (i : Ident) : Option UnitClass :=
  if i.cls = 1 then some .listener else if i.cls = 2 then some .voice else none

/-- The firmware state a state byte names (R159). -/
def Ident.state (i : Ident) : Option FwState :=
  if i.fwState = 1 then some .complete else if i.fwState = 2 then some .incomplete else none

/-- Whether the record is well formed (R160, check 1). -/
def Ident.sound (i : Ident) : Bool :=
  i.unitClass.isSome && i.state.isSome && decide (1 ≤ i.fwPages) && decide (i.fwPages ≤ 800)

/-- Whether the ident names a tune (R160). -/
def Ident.tuned (i : Ident) : Bool := (reportedTune i.tuneTour i.tuneLang).isSome

/-! ### Areas (R160, R161) -/

/-- The byte range of an area: first byte and one past the last (R160). -/
def Ident.range (i : Ident) : Area → Nat × Nat
  | .boot => (0, i.bootPages * Config.pageBytes)
  | .firmware => (i.fwBase * Config.pageBytes, (i.fwBase + i.fwPages) * Config.pageBytes)
  | .tune => (i.tunePage * Config.pageBytes, (i.tunePage + 1) * Config.pageBytes)

/-- Whether a transaction is a program, tune write or erase (R161). -/
def Dock.writes : Dock → Bool
  | .pageProgram _ | .tuneWrite _ _ _ | .blockErase => true
  | _ => false

/-- The bytes a transaction touches from its address (R161). -/
def Dock.span : Dock → Nat
  | .blockErase => Config.blockBytes
  | _ => Config.pageBytes

/-- The area check of a transaction; the first that fails is the violation (R161). -/
def areaCheck (i : Ident) (area : Option Area) (dock : Dock) (addr : Nat) : Option ViolationKind :=
  if dock.writes && decide (addr < (i.range .boot).2) then some .bootArea
  else if dock.writes && addr % dock.span != 0 then some .misaligned
  else match area with
    | none => some .outOfArea
    | some a =>
      if (i.range a).1 ≤ addr ∧ addr + dock.span ≤ (i.range a).2 then none else some .outOfArea

/-! ### The end of a job (R162, R163, R165, R167) -/

/-- The job leaves its channel or the queue, with its transaction (R167, step 1). -/
def Part.dropJob (p : Part) (j : Job) : Part :=
  { p with
    queue := p.queue.filter (·.number != j.number)
    channels := p.channels.map fun h =>
      let h := if (h.active.map (·.number)) = some j.number then { h with active := none, tx := none } else h
      if (h.parked.map (·.number)) = some j.number then { h with parked := none } else h }

/-- IDENTIFY done: the entry, the identified mark and the needs (R162, steps 1 to 4). -/
def Part.identified (p : Part) (j : Job) (i : Ident) : Part :=
  let p := p.modEntry j.unit fun e =>
    { e with fwRevision := i.fw, fwState := i.state.getD .unknown, tuned := i.tuned }
  let p := p.modBay j.bay fun y => { y with identified := true }
  let p := if i.tuned && !p.issueNames j.unit then p.addUntune j.bay else p
  match p.entry j.unit with
  | none => p
  | some e =>
    if p.profile.autoRefresh && (p.slot e.cls).isSealed && !(p.bay j.bay).refreshHold &&
        (e.fwState == .incomplete || decide (i.fw.toNat < (p.slot e.cls).revision)) then
      p.addRefresh j.bay
    else p

/-- The effects of the job's kind at its end (R162, R165, R167 step 5). -/
def Part.kindEffects (p : Part) (j : Job) (r : JobResult) : Part :=
  match j.work, r, j.ident with
  | .identify, .done, some i => p.identified j i
  | .refresh _, .failed _, _ => p.modBay j.bay fun y => { y with refreshHold := true }
  | _, _, _ => p

/-- The event kind of a job's end (R176). -/
def JobResult.event : JobResult → EventKind
  | .done => .jobDone
  | .failed _ => .jobFailed
  | .aborted _ => .jobAborted

/-- A job's end, steps 1 to 6 and 8 of R167; `onMute` is step 4, taken for a FAILED UNIT_MUTE. Step 7 follows
once every job of the event has ended: `Part.serveLeft` where the event goes on to queue work, and
`Part.serveEngine` at its end (log 10). The job's number is free from step 1, so that work queued at
step 6 may take it: the model's choice (R149; log 36). -/
def Part.endJobWith (onMute : Part → BayRef → Part) (p : Part) (j : Job) (r : JobResult) : Part :=
  let p := p.dropJob j
  let p := p.modBay j.bay fun y => { y with job := none, lastJob := some ⟨j.number, j.work.kind, r⟩ }
  let p := if j.work.urgent then p.tuneEnded j.number r else p
  let p := if r = .failed .unitMute then onMute p j.bay else p
  let p := ((p.kindEffects j r).tryWork j.bay).readyEval j.bay
  p.raise (.bay j.bay) r.event

/-- The end of a job that raises no fault: every end but FAILED UNIT_MUTE (R125). -/
def Part.endJob (p : Part) (j : Job) (r : JobResult) : Part := p.endJobWith (fun p _ => p) j r

/-- Step 7 of R167 for a channel left without a job: it becomes IDLE and takes work from the arbiter. -/
def Part.freeChannel (p : Part) (c : ChannelNo) : Part :=
  let h := p.channel c
  match h.state, h.active, h.parked with
  | .running, none, none | .yielding, none, none =>
    (p.modChannel c fun h => { h with state := .idle }).dispatchChannel c
  | _, _, _ => p

/-- Step 7 of R167 within an event that goes on to queue work: the channels its ended jobs left take work,
ascending, and the queue is served for the room left (R152, R168). A channel with a parked job resumes it
when the event ends; it takes nothing from the queue (log 10). -/
def Part.serveLeft (p : Part) : Part := (allChannels.foldl Part.freeChannel p).serveBays

/-- Aborting a list of jobs in order, each handed on whole before the next leaves: the model's choice between
R168, by which each end is handed on in turn, its bay's next work tried at step 6, and R152, by which all
leave the queue before bays are served (log 39). -/
def Part.abortJobs (p : Part) (js : List Job) (r : AbortReason) : Part :=
  js.foldl (fun q j => q.endJob j (.aborted r)) p

/-- Aborting the job bound to a bay (R168). -/
def Part.abortBound (p : Part) (b : BayRef) (r : AbortReason) : Part :=
  p.abortJobs (p.jobs.filter (·.bay == b)) r

/-- A settlement of an issue record (R181), its TUNE withdrawn where the outcome says so; the channel that
TUNE left is served before an UNTUNE need is handed (R167 step 7). -/
def Part.settle (p : Part) (n : IssueNo) (o : Outcome) : Part :=
  let x := p.issue n
  let q := p.settleBegin n o
  let q := match x.state, x.job with
    | .tuning, some (k, _) =>
      if o.withdraws then
        match q.jobNumbered k with
        | some j => (q.endJob j (.aborted .issueEnded)).serveLeft
        | none => q
      else q
    | _, _ => q
  q.settleEnd n o x

/-- Every record in progress that satisfies a test fails (R186). -/
def Part.failIssues (p : Part) (f : Issue → Bool) (r : IssueReason) : Part :=
  (p.issuesWhere f).foldl (fun q n => q.settle n (.failed r)) p

/-! ### The steps of running jobs (R160 to R166) -/

/-- Changing the active job of a channel. -/
def Part.modActive (p : Part) (c : ChannelNo) (f : Job → Job) : Part :=
  p.modChannel c fun h => { h with active := h.active.map f }

/-- A transaction with an address is checked; a failing check locks the channel and ends the job (R161).
-/
def Part.prepareChecked (p : Part) (c : ChannelNo) (j : Job) (i : Ident) (dock : Dock) (addr : Nat) : Part :=
  match areaCheck i j.work.area dock addr with
  | none => p.prepareTx c dock (some addr)
  | some k =>
    let p := p.modChannel c fun h =>
      { h with violation := some ⟨k, addr, j.number⟩, state := .locked }
    (p.endJob j (.failed .violation)).raise (.channel c) .violation

/-- Filling the staging page (R153, R165). -/
def Part.fillStaging (p : Part) (c : ChannelNo) (s : Staging) : Part :=
  p.modChannel c fun h => { h with staging := some s }

/-- The next step of a REFRESH after its ERASE: image page `progress`, or CHECK when all pages are done
(R165). -/
def Part.refreshPage (nv : Nv) (p : Part) (c : ChannelNo) (j : Job) (i : Ident) (s : UnitClass) : Part :=
  if j.progress < j.total then
    let addr := (i.fwBase + j.progress) * Config.pageBytes
    let x := nv.readPage s j.progress
    let p := ((p.noteCorrection x.2).modActive c fun j => { j with phase := some .program }).fillStaging c
      ⟨x.1, j.number, .refresh, addr⟩
    p.prepareChecked c j i (.pageProgram x.1) addr
  else
    (p.modActive c fun j => { j with phase := some .check }).prepareTx c (.areaCheck j.total) none

/-- The first block a REFRESH erases, and how many (R164). -/
def refreshBlocks (i : Ident) (pages : Nat) : Nat × Nat :=
  (i.fwBase / 16, (i.fwBase + pages - 1) / 16 + 1 - i.fwBase / 16)

/-- The next step of a job: the transaction its phase calls for, or its end when its work is done; the
job is the channel's active job (R162 to R166). -/
def Part.nextStep (nv : Nv) (p : Part) (c : ChannelNo) (j : Job) (i : Ident) : Part :=
  match j.work with
  | .identify => p.endJob j .done
  | .tune t =>
    let p := p.modActive c fun j => { j with phase := some .write }
    p.prepareChecked c j i
      (.tuneWrite (match t with | some t => t.tour.val + 1 | none => 0)
        (match t with | some t => t.lang.val + 1 | none => 0) (i.tuneRev + 1))
      (i.tunePage * Config.pageBytes)
  | .refresh s =>
    let blocks := refreshBlocks i j.total
    if j.erased < blocks.2 then
      (p.modActive c fun j => { j with phase := some .erase }).prepareChecked c j i .blockErase
        ((blocks.1 + j.erased) * Config.blockBytes)
    else p.refreshPage nv c j i s
  | .maintRead _ a n =>
    if j.progress < n then
      (p.modActive c fun j => { j with phase := some .read }).prepareChecked c j i .pageRead
        (a + Config.pageBytes * j.progress)
    else p.endJob j .done
  | .maintWrite _ a d =>
    if j.progress < 1 then
      (p.modActive c fun j => { j with phase := some .write }).prepareChecked c j i (.pageProgram d) a
    else p.endJob j .done
  | .maintErase _ a n =>
    if j.progress < n then
      (p.modActive c fun j => { j with phase := some .erase }).prepareChecked c j i .blockErase
        (a + Config.blockBytes * j.progress)
    else p.endJob j .done

/-- Putting a changed job in a channel's active place and taking its next step. -/
def Part.goOn (nv : Nv) (p : Part) (c : ChannelNo) (j : Job) : Part :=
  match j.ident with
  | some i => (p.modChannel c fun h => { h with active := some j, tx := none }).nextStep nv c j i
  | none => p

/-! ### Parking and the serving of channels (R154 to R156, R167 step 7) -/

/-- Whether an URGENT job is queued. -/
def Part.urgentQueued (p : Part) : Bool := p.queue.any (·.work.urgent)

/-- Parking a channel's REFRESH: the channel takes the first URGENT job (R156). -/
def Part.park (p : Part) (c : ChannelNo) : Part :=
  let p := p.modChannel c fun h => { h with parked := h.active, active := none, tx := none }
  let p := match p.queue.find? (·.work.urgent) with
    | some j => p.dispatchTo c j
    | none => p
  p.raise (.channel c) .parked

/-- A parked job resumes after its last completed step (R156). -/
def Part.resume (nv : Nv) (p : Part) (c : ChannelNo) (j : Job) : Part :=
  let p := p.modChannel c fun h => { h with state := .running, active := some j, parked := none }
  match j.work, j.ident with
  | .refresh s, some i => p.refreshPage nv c j i s
  | _, _ => p

/-- Serving one channel whose active job has ended: its parked job resumes, or it is freed (R167, step 7). -/
def Part.serveChannel (nv : Nv) (p : Part) (c : ChannelNo) : Part :=
  let h := p.channel c
  match h.state, h.active, h.parked with
  | .running, none, some j | .yielding, none, some j => p.resume nv c j
  | _, _, _ => p.freeChannel c

/-- Whether a channel may be chosen to yield (R155). -/
def Channel.mayYield (h : Channel) : Bool :=
  h.state == .running && h.parked.isNone &&
  match h.active with
  | some j => j.work.kind == .refresh && j.phase == some .program
  | none => false

/-- The channel chosen to yield: the earliest started REFRESH, the lowest number among equals (R155). -/
def Part.yieldChoice (p : Part) : Option ChannelNo :=
  let started (c : ChannelNo) := ((p.channel c).active.bind (·.started)).getD 0
  allChannels.foldl (fun best c =>
    if (p.channel c).mayYield then
      match best with
      | none => some c
      | some b => if started c < started b then some c else best
    else best) none

/-- Whether a channel is to be chosen: more URGENT jobs queued than channels YIELDING, none IDLE
(R155). -/
def Part.yieldNeeded (p : Part) : Bool :=
  decide ((allChannels.countP fun c => (p.channel c).state == .yielding) <
    p.queue.countP (·.work.urgent)) &&
  allChannels.all fun c => (p.channel c).state != .idle

/-- Whether a transaction's request has gone out (R153). -/
def Transaction.isOut (t : Transaction) : Bool :=
  match t.status with
  | .out _ => true
  | _ => false

/-- Choosing one channel to yield; a REFRESH whose request has not gone out is parked at once (R155,
R156). -/
def Part.judgeYield (p : Part) : Part :=
  if p.yieldNeeded then
    match p.yieldChoice with
    | none => p
    | some c =>
      let p := p.modChannel c fun h => { h with state := .yielding }
      if (match (p.channel c).tx with | some t => t.isOut | none => false) then p else p.park c
  else p

/-- The engine at the end of an event: the channels left by ended jobs are served, the waiting work of
the bays is queued for the room left, and yields are judged (R152, R154 to R156, R167 step 7). -/
def Part.serveEngine (nv : Nv) (p : Part) : Part :=
  let p := allChannels.foldl (fun q c => q.serveChannel nv c) p
  let p := p.dispatch.serveBays
  (p.judgeYield.judgeYield.judgeYield.judgeYield).serveBays

end Sys2Proof.Machine
end

