-- ==== Sys2Proof/Machine/Faults.lean ====
section
/-! DEFINITION. The fault supervisor's shared operations (spec 07): the retire list, retirement, the
disabling of a bay, fault occurrences, and the dock transactions' answers and limits that may raise
MUTE. -/

namespace Sys2Proof.Machine

/-! ### The retire list and retirement (R133, R135) -/

/-- Adding an id to the working retire list (R135). -/
def Part.listRetired (p : Part) (u : UnitId) : Part :=
  if p.retireList.contains u then p
  else if p.retireList.length < Config.retireListSize then
    { p with retireList := p.retireList ++ [u], store := { p.store with retireDirty := true } }
  else p.raiseWith .system .retireListFull fun a => { a with listFull := some u }

/-- Removing an id from the working retire list (R135, R136). -/
def Part.unlistRetired (p : Part) (u : UnitId) : Part :=
  if p.retireList.contains u then
    { p with retireList := p.retireList.filter (· != u), store := { p.store with retireDirty := true } }
  else p

/-- Steps 7 and 8 of R133: an ON_AIR entry is sent an UNTUNE, a DOCKED entry's session is halted. -/
def Part.retireWhere (p : Part) (u : UnitId) : Part :=
  match p.entry u with
  | none => p
  | some e =>
    match e.state, e.bay with
    | .onAir, _ => p.raiseNotice u .untune none false
    | .docked, some b => (p.haltSession b).readyEval b
    | _, _ => p

/-- Retirement of an entry (R133, R136). -/
def Part.retire (p : Part) (u : UnitId) : Part :=
  match p.entry u with
  | none => p
  | some e =>
    if e.retired then
      let p := p.listRetired u
      let p := match e.bay with
        | some b => p.modBay b fun y => { y with release := false }
        | none => p
      p.raiseUnit u .retired id
    else
      let p := (p.modEntry u fun e => { e with retired := true }).listRetired u
      let p := p.failIssues (·.unit == some u) .retired
      let p := ((p.endNotice u).unassign u).withdrawSource u
      (p.retireWhere u).raiseUnit u .retired id

/-! ### Bay disabling (R117) -/

/-- A bay's enable turns off (R117). -/
def Part.disableBay (p : Part) (b : BayRef) : Part :=
  let p := (p.modBay b fun y => { y with enable := false, identified := false }).emptyNeeds b
  ((((p.abortBound b .faultAbort).endSession b).readyEval b)).raise (.bay b) .bayDisabled

/-! ### Fault occurrence (R127 to R129) -/

/-- Adding a class to a set kept in the order of classes. -/
def addClass (c : FaultClass) (l : List FaultClass) : List FaultClass :=
  allFaultClasses.filter fun d => d == c || l.contains d

/-- The fault record after an occurrence (R127, step 1). -/
def Part.faultRecord (p : Part) (c : FaultClass) (o : Occupant) : Option FaultRecord → FaultRecord
  | none => ⟨[c], (p.profile.policy c).recovery, o.unit, o.listed, p.now, 1⟩
  | some f =>
    { f with
      classes := addClass c f.classes
      occurrences := min (f.occurrences + 1) 255
      recovery := if (p.profile.policy c).recovery = .onClear then .onClear else f.recovery }

/-- The count of a class for a listed occupant, and the retirement it brings (R127, step 5). -/
def Part.countFault (p : Part) (c : FaultClass) (u : UnitId) : Part :=
  let p := p.modEntry u fun e =>
    { e with faults := e.faults.set (faultIdx c) (min (e.faults[faultIdx c] + 1) 15) }
  let after := (p.profile.policy c).retireAfter
  match p.entry u with
  | some e => if after != 0 && decide (after ≤ e.faults[faultIdx c]) then p.retire u else p
  | none => p

/-- A contact strike (R129). -/
def Part.strike (p : Part) (b : BayRef) : Part :=
  let p := p.modBay b fun y => { y with strikes := min (y.strikes + 1) 10 }
  if p.profile.strikeLimit ≤ (p.bay b).strikes ∧ (p.bay b).enable = true then p.disableBay b else p

/-- A fault occurrence (R127). -/
def Part.faultOccur (c : FaultClass) (p : Part) (b : BayRef) : Part :=
  match (p.bay b).occupant with
  | none => p
  | some o =>
    let p := p.modBay b fun y => { y with fault := some (p.faultRecord c o y.fault) }
    let p := p.haltSession b
    let p := if o.listed then p.failIssues (·.unit == some o.unit) .fault else p
    let p := (p.emptyNeeds b).abortBound b .faultAbort
    let p := if o.listed then p.countFault c o.unit else p
    let p := if c = .contact then p.strike b else p
    (p.readyEval b).raiseWith (.bay b) .fault fun a => { a with newFaults := addClass c a.newFaults }

/-- A job's end that may be FAILED UNIT_MUTE (R125, R167). -/
def Part.endJobMute (p : Part) (j : Job) (r : JobResult) : Part :=
  p.endJobWith (Part.faultOccur .mute) j r

/-! ### Dock transactions: sending, answers, limits (R157, R158, R160, R164) -/

/-- The engine is told that a channel's request has gone out (R100, R158); the first erase of a REFRESH
makes the entry's firmware INCOMPLETE (R164). Of a turn whose job has ended meanwhile there is no transaction,
and nothing is told: the model's choice where the turn was that first erase (log 40). -/
def Part.requestGone (p : Part) (c : ChannelNo) (serial : Byte) : Part :=
  let h := p.channel c
  match h.tx with
  | none => p
  | some t =>
    if t.serial = serial ∧ t.status = .inTurn then
      let limit := if t.dock = .blockErase then Config.noAnswerErase else Config.noAnswer
      let q := p.setChannel c { h with tx := some { t with status := .out (p.now + limit) } }
      match h.active with
      | some j =>
        if j.work.kind = .refresh ∧ t.dock = .blockErase ∧ j.erased = 0 then
          (q.modEntry j.unit fun e => { e with fwState := .incomplete }).readyEval j.bay
        else q
      | none => q
    else p

/-- The no-answer limit of a channel's transaction passes (R158). -/
def Part.limitPassed (p : Part) (c : ChannelNo) (t : Transaction) (j : Job) : Part :=
  if t.attempts < Config.attemptLimit then
    p.modChannel c fun h => { h with tx := some { t with status := .waiting, attempts := t.attempts + 1 } }
  else p.endJobMute j (.failed .unitMute)

/-- The DONE of an IDENT_READ (R160, R162, R164). -/
def Part.identDone (nv : Nv) (p : Part) (c : ChannelNo) (j : Job) (i : Ident) : Part :=
  if !i.sound then p.endJob j (.failed .badIdent)
  else if i.unit != j.unit || (p.entry j.unit).map (·.cls) != i.unitClass then
    p.endJob j (.failed .wrongUnit)
  else
    let k := { j with ident := some i }
    match j.work with
    | .identify => p.goOn nv c { k with progress := 1 }
    | .refresh s =>
      if (p.slot s).isSealed && i.unitClass == some s && decide ((p.slot s).pages ≤ i.fwPages) then
        p.goOn nv c k
      else p.endJob k (.failed .imageMisfit)
    | _ => p.goOn nv c k

/-- The DONE of a PAGE_PROGRAM of a REFRESH: the page is counted; a YIELDING channel parks its job while
an URGENT job is queued (R156, R165). -/
def Part.pageDone (nv : Nv) (p : Part) (c : ChannelNo) (j : Job) : Part :=
  let k := { j with progress := j.progress + 1 }
  if (p.channel c).state = .yielding then
    let p := p.modChannel c fun h => { h with active := some k, tx := none }
    if p.urgentQueued then p.park c
    else (p.modChannel c fun h => { h with state := .running }).goOn nv c k
  else p.goOn nv c k

/-- The unit table takes what a TUNE wrote (R37, R163). -/
def Part.tuneWritten (p : Part) (u : UnitId) (tune : Option Tune) : Part :=
  p.modEntry u fun e => { e with tuned := tune.isSome }

/-- The unit table takes COMPLETE at the slot's revision (R37, R165). -/
def Part.committed (p : Part) (u : UnitId) (revision : Nat) : Part :=
  p.modEntry u fun e => { e with fwState := .complete, fwRevision := BitVec.ofNat 16 revision }

/-- The DONE of an outstanding transaction whose data have the form it returns; data of another form are
discarded with the answer (R157, R158; log 19). -/
def Part.txDone (nv : Nv) (p : Part) (c : ChannelNo) (j : Job) (t : Transaction) (d : DockData) : Part :=
  match t.dock, j.work, d with
  | .identRead, _, .ident bytes =>
    match parseIdent bytes with
    | some i => p.identDone nv c j i
    | none => p
  | .tuneWrite _ _ _, .tune tune, .none => (p.tuneWritten j.unit tune).endJob { j with progress := 1 } .done
  | .blockErase, .refresh _, .none => p.goOn nv c { j with erased := j.erased + 1 }
  | .blockErase, .maintErase _ _ _, .none => p.goOn nv c { j with progress := j.progress + 1 }
  | .pageProgram _, .refresh _, .none => p.pageDone nv c j
  | .pageProgram _, .maintWrite _ _ _, .none => p.goOn nv c { j with progress := 1 }
  | .pageRead, .maintRead _ a _, .page bytes =>
    if bytes.length = Config.pageBytes then
      (p.fillStaging c ⟨bytes, j.number, .maintRead, a + Config.pageBytes * j.progress⟩).goOn nv c
        { j with progress := j.progress + 1 }
    else p
  | .areaCheck _, .refresh s, .check v =>
    if v = (p.slot s).checksum then
      (p.modChannel c fun h => { h with active := some { j with phase := some .commit }, tx := none }).prepareTx c
        (.commit (BitVec.ofNat 16 (p.slot s).revision)) none
    else p.endJob j (.failed .verifyFail)
  | .commit _, .refresh s, .none => (p.committed j.unit (p.slot s).revision).endJob j .done
  | _, _, _ => p

/-- A DOCK_ANSWER: taken when channel, bay and serial match the outstanding transaction (R157, R158). -/
def Part.dockAnswer (nv : Nv) (p : Part) (c : ChannelNo) (b : BayRef) (serial : Byte) (a : DockAnswer) : Part :=
  match (p.channel c).active, (p.channel c).tx with
  | some j, some t =>
    if j.bay = b ∧ t.serial = serial then
      match a with
      | .done d => p.txDone nv c j t d
      | .notBlank => p.endJob j (.failed .notBlank)
      | .verifyFail => p.endJob j (.failed .verifyFail)
      | .refused => p.endJob j (.failed .refused)
    else p
  | _, _ => p

/-! ### Removal (R130, R136) -/

/-- The fault supervisor is told of a removal (R130, R136). -/
def Part.faultRemoval (p : Part) (b : BayRef) : Part :=
  let p := match (p.bay b).fault with
    | some f =>
      if f.recovery = Recovery.onRemove then
        (p.modBay b fun y => { y with fault := none }).raise (.bay b) .faultCleared
      else p
    | none => p
  let y := p.bay b
  if y.release then
    let q := p.modBay b fun y => { y with release := false }
    match y.occupant with
    | some o =>
      if o.listed && !q.retireList.contains o.unit then
        q.modEntry o.unit fun e => { e with retired := false }
      else q
    | none => q
  else p

end Sys2Proof.Machine
end

