-- ==== Sys2Proof/Machine/Racks.lean ====
section
/-! DEFINITION. The rack controller (spec 06, spec 08 section 8.4): seats and unseats, the charge rule, the
module's events, attach, survey and teardown, the show period, the bus master, and what is served at
the end of an event. -/

namespace Sys2Proof.Machine

/-! ### Unseat and seat (R24, R108, R109, R185) -/

/-- The issue controller is told of an unseat and returns the disposition (R185). -/
def Part.issueUnseat (p : Part) (b : BayRef) : Part × Disposition :=
  match p.issuesWhere (·.bay == some b) with
  | n :: _ =>
    let x := p.issue n
    if x.state = .picking then (p.settle n .taken, .taken x.tune)
    else (p.settle n (.failed .removedEarly), .noIssue)
  | [] =>
    if (p.rack b.rack).ready.contains b.no then
      ((allIssues.filter fun n =>
          (p.issue n).state == .picking && ((p.issue n).bay.map (·.rack)) == some b.rack).foldl
        (fun q n => (q.modIssue n fun x => { x with wrongBay := some b }).raise (.issue n) .wrongBay) p,
       .noIssue)
    else (p, .noIssue)

/-- An unseat of a bay (R109, R130, R144, R150). -/
def Part.unseat (p : Part) (b : BayRef) : Part :=
  match (p.bay b).occupant with
  | none => p
  | some o =>
    let r := p.issueUnseat b
    let p := if o.listed then r.1.unseatUnit o.unit b r.2 else r.1
    let p := (p.emptyNeeds b).abortBound b .unseat
    let p := (p.modBay b fun y =>
      { y with identified := false, telemetry := none, sessionStart := none, startLevel := none
               bounces := 0 }).endSession b
    let p := p.faultRemoval b
    let p := (p.modBay b fun y =>
      { y with occupant := none, pickMark := false, refreshHold := false }).readyEval b
    p.raiseWith (.bay b) .unseated fun a => { a with leftUnit := some o.unit }

/-- The other bays that record a unit (R24). -/
def Part.otherBays (p : Part) (u : UnitId) (b : BayRef) : List BayRef :=
  allBays.filter fun d => d != b && ((p.bay d).occupant.map (·.unit)) == some u

/-- A seat of a unit in a bay (R24, R25, R108); the channels that jobs aborted by its unseats left are served
before its session starts (R167 step 7, R168). -/
def Part.seat (p : Part) (b : BayRef) (u : UnitId) (cls : UnitClass) : Part :=
  if !validUnit u || ((p.bay b).occupant.map (·.unit)) == some u then p
  else
    let p := p.unseat b
    let p := ((p.otherBays u b).foldl Part.unseat p).serveLeft
    let r := p.seatUnit u cls b
    let p := r.1.modBay b fun y =>
      { y with occupant := some ⟨u, r.2⟩, telemetry := none, identified := false
               needUntune := false, needRefresh := false }
    let p := if r.2 then p else p.raise (.bay b) .tableFull
    let p := (p.sessionStart b).readyEval b
    p.raiseWith (.bay b) .seated fun a => { a with cameUnit := some u }

/-! ### The module's events (R110, R112, R113, R123, R125) -/

/-- A session that charges or is topped. -/
def Session.active : Session → Bool
  | .charging | .topped => true
  | _ => false

/-- A BOUNCE (R110, R125). -/
def Part.bounce (p : Part) (b : BayRef) : Part :=
  let y := p.bay b
  if y.occupant.isSome && y.session.active then
    let q := p.setBay b { y with bounces := y.bounces + 1 }
    if y.bounces + 1 = 3 then q.faultOccur .contact b else q
  else p

/-- Whether the weak check's time condition is met (R123). -/
def Part.weakDue (p : Part) (y : Bay) : Bool :=
  match y.weak, y.sessionStart with
  | .pending w, some t => decide (60000 * w ≤ p.now - t)
  | _, _ => false

/-- The classes one telemetry finds, in the order they are taken; `fresh` tells that it set the level at
start (R123). -/
def Part.telemetryFaults (p : Part) (y : Bay) (t : Telemetry) (fresh : Bool) : List FaultClass :=
  (if (p.profile.hotLimit : Int) < t.temp then [.hot] else []) ++
  (if p.profile.voltLimit < t.mv then [.overvolt] else []) ++
  (match y.startLevel with
    | some l => if p.weakDue y && !fresh && decide (t.level < l + p.profile.weakGain) then [.weakcell] else []
    | none => [])

/-- The charge rule at a telemetry (R113). -/
def Part.chargeRule (p : Part) (b : BayRef) (level : Nat) : Part :=
  match (p.bay b).session with
  | .charging => if level = 100 then p.topSession b else p
  | .topped =>
    if level < p.profile.topupLevel then
      (p.modBay b fun y => { y with session := .charging }).orderCharge b true
    else p
  | _ => p

/-- A TELEMETRY (R112). -/
def Part.telemetry (p : Part) (b : BayRef) (t : Telemetry) : Part :=
  match (p.bay b).occupant with
  | none => p
  | some o =>
    if 100 < t.level then p
    else
      let p := p.modBay b fun y => { y with telemetry := some t }
      let p := if o.listed then p.modEntry o.unit fun e => { e with level := t.level } else p
      let p :=
        if (p.bay b).session.active then
          let fresh := (p.bay b).startLevel.isNone
          let p := if fresh then p.modBay b fun y => { y with startLevel := some t.level } else p
          let y := p.bay b
          let found := p.telemetryFaults y t fresh
          let p := if p.weakDue y then p.modBay b fun y => { y with weak := .done } else p
          (found.foldl (fun q c => q.faultOccur c b) p).chargeRule b t.level
        else p
      p.readyEval b

/-- A TERMINATED (R113). -/
def Part.terminated (p : Part) (b : BayRef) : Part :=
  if (p.bay b).session = .charging then (p.topSession b).readyEval b else p

/-! ### The show period (R145 to R147) -/

/-- The hold starts (R145 to R147). -/
def Part.startHold (p : Part) (r : RackNo) : Part :=
  p.modRack r fun k => { k with showState := .hold (p.now + 1000 * p.profile.hold) }

/-- A BUTTON (R145, R147, R148). -/
def Part.button (p : Part) (r : RackNo) : Part :=
  let q := match (p.rack r).showState with
    | .idle =>
      if 0 < p.profile.rampDelay then
        p.modRack r fun k => { k with showState := .ramp 1 (p.now + p.profile.rampDelay) }
      else p.startHold r
    | _ => p.startHold r
  q.raiseWith (.rack r) .buttonPressed fun a => { a with presses := min (a.presses + 1) 255 }

/-- An elapse of the ramp timer (R146). -/
def Part.rampElapse (p : Part) (r : RackNo) : Part :=
  match (p.rack r).showState with
  | .ramp step d =>
    let p := p.reach d
    if step + 1 < 5 then
      p.modRack r fun k => { k with showState := .ramp (step + 1) (p.now + p.profile.rampDelay) }
    else p.startHold r
  | _ => p

/-- The elapse of the hold timer (R147). -/
def Part.holdElapse (p : Part) (r : RackNo) : Part :=
  match (p.rack r).showState with
  | .hold d => (p.reach d).modRack r fun k => { k with showState := .idle }
  | _ => p

/-! ### Teardown, attach and enables (R102 to R105) -/

/-- A bay becomes UNREACHABLE at its rack's teardown (R103, R143, R144). -/
def Bay.unreach (y : Bay) : Bay :=
  { y with
    session := .none, watch := none, weak := .done, identified := false, telemetry := none
    chargeOrder := none, displayOrder := none, pickMark := false, display := .off, ordered := .off }

/-- A bay's orders are discarded, its needs and identify owed emptied (R103, steps 1 and 2). -/
def Bay.discardOrders (y : Bay) : Bay :=
  { y with chargeOrder := none, displayOrder := none, needUntune := false, needRefresh := false
           identifyOwed := false }

/-- A rack is torn down (R103). -/
def Part.teardownRack (p : Part) (r : RackNo) : Part :=
  let p := p.modRack r fun k =>
    { k with state := .offline, missed := 0, step := none, offered := none, setupOrder := none
             bays := k.bays.map Bay.discardOrders }
  let p := p.abortJobs (p.jobs.filter (·.bay.rack == r)) .rackLost
  let p := p.failIssues (fun x => (x.bay.map (·.rack)) == some r) .rackLost
  let p := p.modRack r fun k =>
    { k with ready := [], showState := .idle, bays := k.bays.map Bay.unreach }
  p.raise (.rack r) .rackOffline

/-- A HELLO's bay count and revision taken at a rack that is not DISABLED (R102, R105). At a rack that a SET has made
DISABLED during the turn they are discarded, the model's choice (log 42). -/
def Part.rackHello (p : Part) (r : RackNo) (count revision : Nat) : Part :=
  if (p.rack r).state = .disabled then p
  else
    let p := if (p.rack r).state = .online then p.teardownRack r else p
    if 8 ≤ count ∧ count ≤ 24 then
      p.modRack r fun k =>
        { k with state := .attaching, step := some .setup, offered := some count, missed := 0
                 revision := some revision }
    else
      (p.modRack r fun k =>
        { k with state := .offline, step := none, offered := none, missed := 0 }).raiseWith (.rack r) .rackRejected
          fun a => { a with offered := some count }

/-- A rack enters service or leaves it by its profile enable (R105). A rack disabled while ATTACHING takes
missed 0, the model's choice (log 34). -/
def Part.enableRack (p : Part) (r : RackNo) (on : Bool) : Part :=
  match (p.rack r).state, on with
  | .disabled, true =>
    p.modRack r fun k => { k with state := .offline, pollTimer := some (p.now + Config.pollPeriod) }
  | .disabled, false => p
  | _, true => p
  | s, false =>
    let p := if s = .online then p.teardownRack r else p
    p.modRack r fun k =>
      { k with state := .disabled, step := none, offered := none, missed := 0, pollTimer := none
               pollDue := none }

/-- One bay's reconciliation (R104). -/
def Part.surveyBay (p : Part) (b : BayRef) (s : Option (UnitId × UnitClass)) : Part :=
  let found := match s with
    | some x => if validUnit x.1 then some x else none
    | none => none
  match (p.bay b).occupant, found with
  | none, none => p
  | some o, some x => if o.unit = x.1 then p.sessionStart b else (p.unseat b).seat b x.1 x.2
  | some _, none => p.unseat b
  | none, some x => p.seat b x.1 x.2

/-- What a bay takes when it becomes absent (R104). -/
def Bay.becomeAbsent (y : Bay) : Bay :=
  { y with fault := none, release := false, strikes := 0, enable := true, refreshHold := false
           lastJob := none, display := .off, ordered := .off }

/-- A SURVEY_ANSWER that completes an attach (R104, R143). -/
def Part.attach (nv : Nv) (p : Part) (r : RackNo) (count : Nat)
    (seen : List (Option (UnitId × UnitClass))) : Part :=
  let former := (p.rack r).bayCount.getD 24
  let p := p.modRack r fun k =>
    { k with state := .online, step := none, offered := none, missed := 0, bayCount := none, ready := [] }
  let p := (allBayNos.filter fun b => decide (b.val < max former count)).foldl (fun q b =>
    (q.surveyBay ⟨r, b⟩ (if b.val < count then (seen[b.val]?).join else none)).serveEngine nv) p
  let p := p.modRack r fun k =>
    { k with bayCount := some count
             bays := k.bays.mapFinIdx fun i y _ => if count ≤ i then y.becomeAbsent else y }
  ((allBayNos.filter fun b => decide (b.val < count)).foldl (fun q b => q.orderDisplay ⟨r, b⟩) p).raise
    (.rack r) .rackOnline

/-! ### The bus master (R100, R101) -/

/-- RACK_SETUP from the working profile as it stands (R99, R142). -/
def Part.rackSetup (p : Part) : RackSetup :=
  ⟨p.profile.voltLimit, p.profile.blinkRate, p.profile.flashRate, p.profile.pickRate⟩

/-- Marking the orders a POLL carries (R101). -/
def Rack.carryOrders (k : Rack) : Rack :=
  { k with
    setupOrder := k.setupOrder.map fun o => { o with carried := true }
    bays := k.bays.map fun y =>
      { y with chargeOrder := y.chargeOrder.map fun o => { o with carried := true }
               displayOrder := y.displayOrder.map fun o => { o with carried := true } } }

/-- Orders carried in an answered POLL leave the rack's orders; a newer one set during the turn stays
(R101). -/
def dropCarried {α : Type} : Option (Order α) → Option (Order α)
  | some o => if o.carried then none else some o
  | none => none

/-- Orders carried in an unanswered POLL stay pending (R101). -/
def uncarry {α : Type} (o : Option (Order α)) : Option (Order α) := o.map fun o => { o with carried := false }

def Rack.ordersAnswered (k : Rack) : Rack :=
  { k with
    setupOrder := dropCarried k.setupOrder
    bays := k.bays.map fun y =>
      { y with chargeOrder := dropCarried y.chargeOrder, displayOrder := dropCarried y.displayOrder } }

def Rack.ordersUnanswered (k : Rack) : Rack :=
  { k with
    setupOrder := uncarry k.setupOrder
    bays := k.bays.map fun y =>
      { y with chargeOrder := uncarry y.chargeOrder, displayOrder := uncarry y.displayOrder } }

/-- The message of a rack's poll (R101). -/
def Part.pollMessage (p : Part) (r : RackNo) : PollMessage :=
  let k := p.rack r
  match k.state, k.step with
  | .attaching, some .setup => .rackSetup p.rackSetup
  | .attaching, some .survey => .survey
  | .online, _ =>
    .poll (allBayNos.filterMap fun b => (k.bay b).chargeOrder.map fun o => (b, o.value))
      (allBayNos.filterMap fun b => (k.bay b).displayOrder.map fun o => (b, o.value))
      (if k.setupOrder.isSome then some p.rackSetup else none)
  | _, _ => .attach

/-- The rack whose poll takes the turn: the earliest due, the lowest number among equals (R100). -/
def Part.dueRack (p : Part) : Option RackNo :=
  (allRacks.foldl (fun (best : Option (RackNo × Millis)) r =>
    match (p.rack r).pollDue, best with
    | some t, none => some (r, t)
    | some t, some b => if t < b.2 then some (r, t) else best
    | none, _ => best) none).map (·.1)

/-- Whether a channel holds a waiting request, with what it sends (R100). -/
def Part.waitingTx (p : Part) (c : ChannelNo) : Option (Job × Transaction) :=
  match (p.channel c).active, (p.channel c).tx with
  | some j, some t => if t.status = .waiting then some (j, t) else none
  | _, _ => none

/-- The channels in the rotation's order, beginning after the one last served (R100). -/
def Part.rotation (p : Part) : List ChannelNo :=
  [p.bus.lastServed + 1, p.bus.lastServed + 2, p.bus.lastServed + 3, p.bus.lastServed]

/-- Choosing the next turn while the bus is free (R100). -/
def Part.busServe (p : Part) : Part :=
  match p.bus.turn with
  | some _ => p
  | none =>
    match p.dueRack with
    | some r =>
      let m := p.pollMessage r
      let q := p.modRack r fun k =>
        let k := { k with pollDue := none }
        match m with
        | .poll _ _ _ => k.carryOrders
        | _ => k
      { q with bus := { q.bus with turn := some (.poll r m, p.now) } }
    | none =>
      match p.rotation.find? fun c => (p.waitingTx c).isSome with
      | none => p
      | some c =>
        match p.waitingTx c with
        | none => p
        | some (j, t) =>
          let q := p.modChannel c fun h => { h with tx := some { t with status := .inTurn } }
          { q with bus := ⟨some (.dock c j.bay t.serial t.addr t.dock, p.now), c⟩ }

/-- The turn in progress ends. -/
def Part.endTurn (p : Part) : Part := { p with bus := { p.bus with turn := none } }

/-- An answered poll turn: the rack's missed count falls to 0 and the carried orders leave (R101). -/
def Part.pollAnswered (p : Part) (r : RackNo) (m : PollMessage) : Part :=
  let p := p.endTurn.modRack r fun k =>
    match k.state with
    | .attaching | .online => { k with missed := 0 }
    | _ => k
  match m with
  | .poll _ _ _ => p.modRack r Rack.ordersAnswered
  | _ => p

/-- An unanswered poll turn (R101). -/
def Part.pollMissed (p : Part) (r : RackNo) (m : PollMessage) : Part :=
  let p := match m with
    | .poll _ _ _ => p.endTurn.modRack r Rack.ordersUnanswered
    | _ => p.endTurn
  let k := p.rack r
  match k.state with
  | .online =>
    if Config.missedLimit ≤ k.missed + 1 then p.teardownRack r
    else p.setRack r { k with missed := k.missed + 1 }
  | .attaching =>
    if Config.missedLimit ≤ k.missed + 1 then
      p.setRack r { k with state := .offline, step := none, offered := none, missed := 0 }
    else p.setRack r { k with missed := k.missed + 1 }
  | _ => p

/-- The message of the poll turn a rack is answering, if the turn is its (log 12). -/
def Part.pollTurnOf (p : Part) (r : RackNo) : Option PollMessage :=
  match p.bus.turn with
  | some (.poll k m, _) => if k = r then some m else none
  | _ => none

/-! ### What is served at the end of an event (log 10) -/

/-- A retire list save begins when retire-dirty is set and the store engine is IDLE (R200). -/
def Part.startRetireSave (p : Part) : Part :=
  if p.store.retireDirty && p.store.op.isNone then
    { p with store := { p.store with op := some (.retireSave p.retireList), retireDirty := false } }
  else p

/-- The end of one event: the engine, the displays, the retire list save. -/
def Part.settleEvent (nv : Nv) (p : Part) : Part := (p.serveEngine nv).refreshDisplays.startRetireSave

/-- The end of a step's last event: as above, then the free bus is given. -/
def Part.finish (nv : Nv) (p : Part) : Part := (p.settleEvent nv).busServe

/-! ### The events of a POLL_ANSWER (R99) -/

/-- One event of a POLL_ANSWER; an event for an absent bay is dropped (R98). -/
def Part.pollEvent (nv : Nv) (p : Part) (r : RackNo) : PollEvent → Part
  | .seat n u cls => match p.namedBay r n with | some b => p.seat b u cls | none => p
  | .unseat n => match p.namedBay r n with | some b => p.unseat b | none => p
  | .bounce n => match p.namedBay r n with | some b => p.bounce b | none => p
  | .telemetry n mv ma temp level =>
    match p.namedBay r n with | some b => p.telemetry b ⟨mv, ma, temp, level⟩ | none => p
  | .terminated n => match p.namedBay r n with | some b => p.terminated b | none => p
  | .button => p.button r
  | .dockAnswer c n serial a =>
    match p.namedBay r n with | some b => p.dockAnswer nv c b serial a | none => p

end Sys2Proof.Machine
end

