-- ==== Sys2Proof/Machine/Reads.lean ====
section
/-! DEFINITION. The records as replies and reports show them: the fields each reading rule names, the
report body of a source, and the bytes of a frame (spec 11 section 11.4 and the reading rules of each
chapter). -/

namespace Sys2Proof.Machine

/-- A field. -/
def fld (name : String) (value : Text) : Text × Text := (txt name, value)

/-- Whole seconds left until a deadline, rounded up. -/
def Part.secondsLeft (p : Part) (d : Millis) : Nat := (d - p.now + 999) / 1000

/-! ### Tours (R9) -/

def Part.tourFields (p : Part) (t : TourNo) : Fields :=
  let k := p.tour t
  [fld "tour" (tourText t), fld "state" (tourStateText k.state), fld "label" (labelText k.label),
   fld "floor" (match k.floor with | some l => langText l | none => txt "0"),
   fld "capacity" (numText k.capacity), fld "count" (numText k.count),
   fld "held" (numText (p.heldCount t)), fld "issuing" (numText (p.issuingCount t)),
   fld "retuning" (numText (p.retuningCount t)),
   fld "sources" (commas (k.sources.map fun x => colons [langText x.1, hex8 x.2]))]

/-! ### Units (R39, R40) -/

/-- The notice field: kind:target:sequence:life (R39). The life is rounded down to whole seconds, the model's
choice (log 33). -/
def Part.noticeText (p : Part) (n : Notice) : Text :=
  colons [noticeKindText n.kind, orDash tuneText n.target, numText n.seq.toNat,
          numText ((n.deadline - p.now) / 1000)]

/-- The six fault counts in the order of classes (R39, R132). -/
def Entry.faultsText (e : Entry) : Text := commas (e.faults.toList.map numText)

def Part.unitFields (p : Part) (i : Nat) (e : Entry) : Fields :=
  [fld "unit" (hex8 e.unit), fld "index" (numText i), fld "class" (classText e.cls),
   fld "state" (entryStateText e.state), fld "bay" (orDash bayText e.bay),
   fld "lastbay" (orDash bayText e.lastBay), fld "zone" (orDash (fun z : ZoneNo => numText z.val) e.zone),
   fld "quality" (numText e.quality), fld "heard" (numText (min (p.ageSeconds e.lastHeard) 65535)),
   fld "level" (numText e.level), fld "tune" (orDash tuneText e.assignment),
   fld "notice" (orDash p.noticeText e.notice), fld "fw" (numText e.fwRevision.toNat),
   fld "fwstate" (fwStateText e.fwState), fld "tuned" (bit e.tuned), fld "faults" e.faultsText,
   fld "retired" (bit e.retired), fld "source" (orDash tuneText (p.sourceOf e.unit))]

/-- Items joined by slashes. -/
def slashes (l : List Text) : Text := List.intercalate ['/'] l

/-- The summary of a table place (R40). -/
def Part.placeText (p : Part) (i : Nat) : Text :=
  match p.place i with
  | none => slashes [numText i, txt "FREE"]
  | some e =>
    let where_ := match e.state, e.bay, e.zone with
      | .docked, some b, _ => bayText b
      | _, _, some z => 'Z' :: numText z.val
      | _, _, _ => dash
    slashes [numText i, hex8 e.unit, classText e.cls, entryStateText e.state, where_,
             orDash tuneText e.assignment, numText e.level]

/-! ### Zones (R68, R69) -/

def Part.zoneFields (p : Part) (z : ZoneNo) : Fields :=
  let x := p.zone z
  [fld "zone" (numText z.val), fld "state" (zoneStateText x.state),
   fld "label" (labelText p.profile.zones[z].label), fld "cycle" (numText x.cycleNumber.toNat),
   fld "count" (numText x.cycleCount), fld "revision" (numText x.revision.toNat),
   fld "slots" (numText x.slotsHeld), fld "waiting" (numText x.waitQueue.length),
   fld "house" (bit (p.house.covers z)), fld "uplink" (numText (x.uplink.toList.countP (·.isSome))),
   fld "upqueue" (numText x.uplinkQueue.length), fld "notices" (numText x.noticeQueue.length),
   fld "peakslots" (numText x.peakSlots), fld "peakwait" (numText x.peakWaiting)]

/-- A carriage as the field wait writes it (R69). -/
def carriageText (c : Carriage) : Text :=
  match c.stream with
  | .tour t => tuneText t ++ ['/'] ++ numText c.count
  | .house k => 'H' :: numText (k.val + 1)

/-- A carriage as the field down writes it (R69). -/
def placedText (c : Carriage) : Text :=
  carriageText c ++ (match c.stream, c.linger with | .tour _, some n => 'L' :: numText n | _, _ => [])

/-- The fields of ZONE_SLOTS (R69). An empty wait queue is written -, the model's choice (log 33). -/
def Part.slotFields (p : Part) (z : ZoneNo) : Fields :=
  let x := p.zone z
  let waiting := x.waitQueue.filterMap x.carriage
  [fld "down" (commas (Config.downSlots.map fun k => orDash placedText (x.holder k))),
   fld "up" (commas (x.uplink.toList.map (orDash hex8))),
   fld "wait" (commasOrDash ((waiting.take 16).map carriageText)),
   fld "more" (numText (waiting.length - 16))]

/-! ### House (R96) -/

def trackText (n : Nat) (t : Track) : Text :=
  numText (n + 1) ++ [':'] ++ slashes
    [langText t.lang, numText t.buffer.length,
     (if t.current.isSome then numText t.serial.toNat else dash),
     numText t.received, numText t.replaced, numText t.starved]

def zonesText (zs : List ZoneNo) : Text := commasOrDash (zs.map fun z => numText z.val)

def Part.houseFields (p : Part) : Fields :=
  let h := p.house
  [fld "state" (if h.running then txt "RUNNING" else txt "IDLE"), fld "zones" (zonesText h.zones),
   fld "placed" (zonesText (p.upZones h.zones)), fld "tracks" (commasOrDash (h.tracks.mapIdx trackText))]

/-! ### Racks, bays and faults (R119, R120, R132, R148) -/

def Part.rackFields (p : Part) (r : RackNo) : Fields :=
  let k := p.rack r
  let bays := k.bays.toList
  let count (f : Bay → Bool) := numText (bays.countP f)
  [fld "rack" (numText r.val), fld "state" (rackStateText k.state),
   fld "step" (orDash attachStepText k.step), fld "bays" (orDash numText k.bayCount),
   fld "revision" (orDash numText k.revision), fld "missed" (numText k.missed),
   fld "occupied" (count (·.occupant.isSome)), fld "charging" (count (·.session == .charging)),
   fld "topped" (count (·.session == .topped)), fld "halted" (count (·.session == .halted)),
   fld "disabled" (count (!·.enable)),
   fld "ready" (commasOrDash (k.ready.map fun b => bayText ⟨r, b⟩)), fld "show" (showText k.showState)]

/-- A unit id, with U: before an unlisted one (R120, R132). -/
def occupantText (u : UnitId) (listed : Bool) : Text := if listed then hex8 u else txt "U:" ++ hex8 u

def lastJobText (j : LastJob) : Text := colons [numText j.number, jobKindText j.kind, jobResultText j.result]

/-- A signed number of the fields ma and temp: a negative one has a leading minus sign, the model's choice
(R120; log 33). -/
def intText (n : Int) : Text := if n < 0 then '-' :: numText n.natAbs else numText n.natAbs

/-- The position of a bay in a ready queue, counted from 1 (R120). -/
def readyPos (b : BayNo) (q : List BayNo) : Option Nat := (q.findIdx? (· == b)).map (· + 1)

/-- Fault classes joined in the order of classes, HOT to MUTE, or - (R132, R138). That the field fault of R120 has
this order too is the model's choice (log 33). -/
def faultsText (l : List FaultClass) : Text :=
  commasOrDash ((allFaultClasses.filter (l.contains ·)).map faultText)

def Part.bayFields (p : Part) (b : BayRef) : Fields :=
  let y := p.bay b
  [fld "bay" (bayText b), fld "state" (bayStateText (p.bayState b)), fld "enable" (bit y.enable),
   fld "occupant" (orDash (fun o : Occupant => occupantText o.unit o.listed) y.occupant),
   fld "session" (sessionText y.session),
   fld "age" (orDash (fun t => numText (p.ageSeconds t)) y.sessionStart),
   fld "startlevel" (orDash numText y.startLevel),
   fld "level" (orDash (fun t : Telemetry => numText t.level) y.telemetry),
   fld "mv" (orDash (fun t : Telemetry => numText t.mv) y.telemetry),
   fld "ma" (orDash (fun t : Telemetry => intText t.ma) y.telemetry),
   fld "temp" (orDash (fun t : Telemetry => intText t.temp) y.telemetry),
   fld "bounces" (numText y.bounces), fld "identified" (bit y.identified),
   fld "fault" (orDash (fun f : FaultRecord => faultsText f.classes) y.fault),
   fld "strikes" (numText y.strikes), fld "job" (orDash numText y.job),
   fld "lastjob" (orDash lastJobText y.lastJob),
   fld "needs" (commasOrDash ((if y.needUntune then [txt "UNTUNE"] else []) ++
     (if y.needRefresh then [txt "REFRESH"] else []))),
   fld "readypos" (orDash numText (readyPos b.no (p.rack b.rack).ready)),
   fld "mode" (displayText y.display)]

def Part.faultFields (p : Part) (b : BayRef) : Fields :=
  let y := p.bay b
  [fld "bay" (bayText b), fld "classes" (orDash (fun f : FaultRecord => faultsText f.classes) y.fault),
   fld "recovery" (orDash (fun f : FaultRecord => recoveryText f.recovery) y.fault),
   fld "unit" (orDash (fun f : FaultRecord => occupantText f.unit f.listed) y.fault),
   fld "age" (orDash (fun f : FaultRecord => numText (min (p.ageSeconds f.raised) 65535)) y.fault),
   fld "occurrences" (orDash (fun f : FaultRecord => numText f.occurrences) y.fault),
   fld "strikes" (numText y.strikes), fld "release" (bit y.release),
   fld "watch" (orDash (fun d => numText ((d - p.now + 59999) / 60000)) y.watch),
   fld "weak" (match y.weak with | .pending _ => txt "PENDING" | .done => txt "DONE"),
   fld "counts" (orDash Entry.faultsText (p.occupantEntry b))]

/-! ### Jobs, channels and image slots (R171, R172, R175) -/

def progressText (j : Job) : Text := numText j.progress ++ ['/'] ++ numText j.total

/-- A job as CHANNEL_READ writes it (R172). -/
def channelJobText (j : Job) : Text :=
  colons [numText j.number, jobKindText j.work.kind, bayText j.bay, orDash phaseText j.phase, progressText j]

/-- The fields of a channel record (R172). The addresses in tx and staged are written in hexadecimal as the one in
violation is, the model's choice (log 14). -/
def Part.channelFields (p : Part) (c : ChannelNo) : Fields :=
  let h := p.channel c
  [fld "channel" (numText c.val), fld "state" (channelStateText h.state),
   fld "job" (orDash channelJobText h.active), fld "parked" (orDash channelJobText h.parked),
   fld "tx" (orDash (fun t : Transaction =>
     colons [dockText t.dock, orDash hexText t.addr, numText t.attempts]) h.tx),
   fld "violation" (orDash (fun v : Violation =>
     colons [violationText v.kind, hexText v.addr, numText v.job]) h.violation),
   fld "staged" (orDash (fun s : Staging =>
     colons [numText s.job, jobKindText s.kind, hexText s.addr]) h.staging),
   fld "data" (orDash (fun s : Staging => hexBytes s.data) h.staging)]

/-- Where a job stands: its state and channel (R149). -/
def Part.jobPlace (p : Part) (n : Nat) : Text × Option ChannelNo :=
  let active := allChannels.find? fun c => ((p.channel c).active.map (·.number)) == some n
  let parked := allChannels.find? fun c => ((p.channel c).parked.map (·.number)) == some n
  match active, parked with
  | some c, _ => (txt "RUNNING", some c)
  | none, some c => (txt "PARKED", some c)
  | none, none => (txt "QUEUED", none)

def Part.jobFields (p : Part) (j : Job) : Fields :=
  let w := p.jobPlace j.number
  [fld "job" (numText j.number), fld "kind" (jobKindText j.work.kind), fld "class" (urgentText j.work.urgent),
   fld "bay" (bayText j.bay), fld "unit" (hex8 j.unit), fld "state" w.1,
   fld "channel" (orDash (fun c : ChannelNo => numText c.val) w.2), fld "phase" (orDash phaseText j.phase),
   fld "progress" (progressText j), fld "age" (orDash (fun t => numText (p.ageSeconds t)) j.started)]

/-- A queued job as JOB_QUEUE_READ writes it (R171). -/
def queuedText (j : Job) : Text :=
  colons [numText j.number, jobKindText j.work.kind, urgentText j.work.urgent, bayText j.bay]

def Part.imageFields (p : Part) (s : UnitClass) : Fields :=
  let h := p.slot s
  let held (t : Text) := if h = .empty then dash else t
  [fld "slot" (classText s), fld "state" (slotStateText h), fld "revision" (held (numText h.revision)),
   fld "pages" (held (numText h.pages)), fld "checksum" (held (hex8 h.checksum)),
   fld "written" (match h with | .loading _ _ _ w => numText w.length | _ => dash)]

/-! ### Issue records (R189) -/

/-- The TUNE's number, followed by its result once ended (R189). -/
def issueJobText (j : Nat × Option JobResult) : Text :=
  match j.2 with
  | none => numText j.1
  | some r => colons [numText j.1, jobResultText r]

/-- The fields of an issue record (R189). A FREE record shows its number too, the model's choice between two
readings (log 33). -/
def Part.issueFields (p : Part) (n : IssueNo) : Fields :=
  let x := p.issue n
  let age (t : Millis) := numText (p.ageSeconds t)
  let left (t : Millis) := numText (p.secondsLeft t)
  [fld "issue" (numText (n.val + 1)), fld "state" (issueStateText x.state),
   fld "reason" (orDash issueReasonText x.reason), fld "class" (orDash classText x.cls),
   fld "unit" (orDash hex8 x.unit), fld "bay" (orDash bayText x.bay), fld "tune" (orDash tuneText x.tune),
   fld "job" (orDash issueJobText x.job), fld "wrongbay" (orDash bayText x.wrongBay),
   fld "age" (orDash age x.issuedAt), fld "picked" (orDash age x.pickAt), fld "ended" (orDash age x.endAt),
   fld "pick" (orDash left x.pick), fld "limit" (orDash left x.limit)]

/-! ### The part as a whole (R205) -/

def Part.statusFields (p : Part) : Fields :=
  let e := p.store
  [fld "cause" (causeText e.cause), fld "profile" (profileOutcomeText e.profileOutcome),
   fld "retire" (retireOutcomeText e.retireOutcome), fld "listed" (numText p.retireList.length),
   fld "corrected" (bit e.corrected), fld "listener" (slotStateText p.listenerSlot),
   fld "voice" (slotStateText p.voiceSlot), fld "store" (storeText e.op), fld "dirty" (bit e.retireDirty),
   fld "baud" (numText e.baud)]

/-! ### Reports (R198) -/

/-- The snapshot of a source (R19, R43, R71, R121, R138, R176, R190, R198). -/
def Part.snapshot (p : Part) (src : Source) (kinds : List EventKind) (a : Attached) : Fields :=
  match src with
  | .system =>
    (if kinds.contains .start then p.statusFields else []) ++
    (if kinds.contains .house || kinds.contains .starved then p.houseFields else []) ++
    (if kinds.contains .retireListFull then
      [fld "listfull" (orDash hex8 a.listFull), fld "listed" (numText p.retireList.length)] else [])
  | .channel c => p.channelFields c
  | .issue n => p.issueFields n
  | .rack r => p.rackFields r
  | .bay b => p.bayFields b
  | .zone z => p.zoneFields z
  | .tour t => p.tourFields t
  | .image s => p.imageFields s
  | .unit i => match p.place i with
    | some e => p.unitFields i e
    | none => [fld "FREE" []]

/-- The outcome of an ended notice and the whole field ended (R85). -/
def noticeEndText (x : NoticeEnd) : Text :=
  colons [noticeKindText x.kind, numText x.seq.toNat,
          if x.acknowledged then txt "ACKNOWLEDGED" else txt "TIMEOUT"]

/-- The fields attached to the kinds that stand in a report's list (R43, R85, R121, R138, R148). The order in
which several stand in one report is the model's choice (R43, R198; log 33). -/
def attachedFields (kinds : List EventKind) (a : Attached) : Fields :=
  let on (k : EventKind) (f : Text × Text) : Fields := if kinds.contains k then [f] else []
  on .evicted (fld "evicted" (orDash hex8 a.evicted)) ++
  on .stray (fld "from" (orDash bayText a.strayFrom)) ++
  (match a.ended.find? fun x => kinds.contains x.event with
    | some x => [fld "ended" (noticeEndText x)]
    | none => []) ++
  on .rackRejected (fld "offered" (orDash numText a.offered)) ++
  on .buttonPressed (fld "presses" (numText a.presses)) ++
  on .fault (fld "newfaults" (faultsText a.newFaults)) ++
  on .unseated (fld "left" (orDash hex8 a.leftUnit)) ++
  on .seated (fld "came" (orDash hex8 a.cameUnit))

/-- The body of a report, composed as the arbiter takes it (R198). -/
def Part.composeReport (p : Part) (r : PendingReport) : Report :=
  { source := r.source
    kinds := r.kinds
    fields := [fld "source" (sourceText r.source), fld "events" (commas (r.kinds.map kindText))] ++
      attachedFields r.kinds r.attached ++ p.snapshot r.source r.kinds r.attached
    final := match r.source with
      | .issue n => if (p.issue n).state.final then some (p.issue n) else none
      | _ => none }

/-! ### Frames (R192, R194) -/

/-- A data field as it is written; the marker FREE stands alone (R43, R194; log 14). -/
def fieldText (f : Text × Text) : Text := if f.1 = txt "FREE" then f.1 else f.1 ++ ['='] ++ f.2

/-- Fields, each after a space. -/
def fieldsText (l : Fields) : Text := l.flatMap fun f => ' ' :: fieldText f

/-- The fields that fit in `n` characters: those before the first that does not (R192; log 21). -/
def fieldsWithin : Nat → Fields → Fields
  | _, [] => []
  | n, f :: l =>
    if (fieldText f).length < n then f :: fieldsWithin (n - ((fieldText f).length + 1)) l else []

/-- A body composed of its first words and data fields: at most 1,024 bytes of them, the fields after the last
that fits left out, the model's choice (R192; log 21). -/
def composedText (head : Text) (l : Fields) : Text := head ++ fieldsText (fieldsWithin (maxBody - head.length) l)

/-- The first words of a reply, verb and result word (R194); a verb that leaves the body no room for the result
word is written ?, the model's choice (R192, R195; log 21). -/
def replyHead (verb : Text) (r : ResultWord) : Text :=
  let word := ' ' :: resultText r
  if verb.length + word.length ≤ maxBody then verb ++ word else '?' :: word

def Reply.text (r : Reply) : Text := composedText (replyHead r.verb r.result) r.fields

def Report.text (r : Report) : Text := composedText (txt "RPT") r.fields

/-- One bit of the frame check: generator 1021, most significant bit first (R192). -/
def crcBit (r : BitVec 16) : BitVec 16 :=
  if r.getLsbD 15 then (r <<< 1) ^^^ 0x1021#16 else r <<< 1

def crcByte (r : BitVec 16) (v : Byte) : BitVec 16 :=
  crcBit (crcBit (crcBit (crcBit (crcBit (crcBit (crcBit (crcBit (r ^^^ (v ++ 0#8)))))))))

/-- The CRC-16 of a frame (R192). -/
def crc (l : List Byte) : BitVec 16 := l.foldl crcByte 0xFFFF#16

/-- A 16-bit value, most significant byte first. -/
def bytes16 (v : BitVec 16) : List Byte := [(v >>> 8).setWidth 8, v.setWidth 8]

/-- A whole frame: start, length, kind, tag, body and check (R192). Every body the part sends is at most 1,024
bytes long, by `composedText`. -/
def frameBytes (kind tag : Byte) (body : List Byte) : List Byte :=
  let covered := bytes16 (BitVec.ofNat 16 (body.length + 2)) ++ kind :: tag :: body
  0xD5#8 :: covered ++ bytes16 (crc covered)

def textBytes (t : Text) : List Byte := t.map fun c => BitVec.ofNat 8 c.toNat

/-- The bytes of the frame being sent (R192). -/
def OutFrame.bytes : OutFrame → List Byte
  | .reply r => frameBytes 2 r.tag (textBytes r.text)
  | .report r => frameBytes 3 0 (textBytes r.text)

end Sys2Proof.Machine
end

