-- ==== Sys2Proof/Machine/Store.lean ====
section
/-! DEFINITION. The settings store (spec 12): the records and regions an operation's end writes, what a
reset leaves of an operation in progress, the start-up load, and the working profile's changes. -/

namespace Sys2Proof.Machine

/-! ### The stored records (R200, R201, R204) -/

/-- Whether a word belongs to an image region. -/
def StoreWord.ofImage (w : StoreWord) (s : UnitClass) : Bool :=
  match w with
  | .image c _ _ => c == s
  | _ => false

/-- Whether a word belongs to one page of an image region. -/
def StoreWord.ofPage (w : StoreWord) (s : UnitClass) (n : Nat) : Bool :=
  match w with
  | .image c m _ => c == s && m == n
  | _ => false

def StoreWord.ofProfile : StoreWord → Bool
  | .profile _ => true
  | _ => false

def StoreWord.ofRetire : StoreWord → Bool
  | .retire _ => true
  | _ => false

def StoreWord.ofHeader (w : StoreWord) (s : UnitClass) : Bool :=
  match w with
  | .header c _ => c == s
  | _ => false

/-- Words written or erased anew hold what was written (R201). -/
def Nv.rewritten (nv : Nv) (f : StoreWord → Bool) : Nv :=
  { nv with upsets := nv.upsets.filter fun u => !f u.word }

def Nv.writeProfile (nv : Nv) (f : Profile) : Nv :=
  ({ nv with profile := .record f } : Nv).rewritten StoreWord.ofProfile

def Nv.writeRetire (nv : Nv) (l : List UnitId) : Nv :=
  ({ nv with retire := .record l } : Nv).rewritten StoreWord.ofRetire

def Nv.writeHeader (nv : Nv) (s : UnitClass) (h : ImageHeader) : Nv :=
  (nv.setHeader s (.record h)).rewritten fun w => w.ofHeader s

def Nv.eraseImage (nv : Nv) (s : UnitClass) : Nv := (nv.setImage s []).rewritten fun w => w.ofImage s

def Nv.writeImagePage (nv : Nv) (s : UnitClass) (n : Nat) (data : List Byte) : Nv :=
  (nv.setImage s ((nv.image s).writePage n data)).rewritten fun w => w.ofPage s n

/-- What an operation that ends leaves in the store (R200). -/
def Nv.completed (nv : Nv) (p : Part) : StoreOp → Nv
  | .profileSave f => nv.writeProfile f
  | .retireSave l => nv.writeRetire l
  | .regionErase (.imageBegin s) => (nv.eraseImage s).writeHeader s (p.slot s)
  | .regionErase .format => Nv.blank
  | .pageWrite s n d => nv.writeImagePage s n d
  | .headerWrite s h _ => nv.writeHeader s h

/-- What a cut-short erase leaves of a record (log 16). -/
def eraseLeft {α : Type} (k : Nat) (x : Stored α) : Stored α :=
  match Config.interruptedErase k with
  | .kept => x
  | .erased => .erased
  | .failsCheck => .failsCheck

/-- What a cut-short erase leaves of an image region (log 16). -/
def imageLeft (k : Nat) (m : Memory) : Memory :=
  match Config.interruptedErase k with
  | .erased => []
  | _ => m

/-- What a full reset leaves of an operation in progress: the record being written fails its check
(R200). -/
def Nv.interrupted (nv : Nv) (free : Nat) : Option StoreOp → Nv
  | none => nv
  | some (.profileSave _) => { nv with profile := .failsCheck }
  | some (.retireSave _) => { nv with retire := .failsCheck }
  | some (.regionErase (.imageBegin s)) => nv.setHeader s .failsCheck
  | some (.regionErase .format) =>
    { nv with
      profile := eraseLeft free nv.profile
      retire := eraseLeft (free + 1) nv.retire
      listenerHeader := eraseLeft (free + 2) nv.listenerHeader
      voiceHeader := eraseLeft (free + 3) nv.voiceHeader
      listenerImage := imageLeft (free + 4) nv.listenerImage
      voiceImage := imageLeft (free + 5) nv.voiceImage }
  | some (.pageWrite _ _ _) => nv
  | some (.headerWrite s _ _) => nv.setHeader s .failsCheck

/-! ### The start-up load (R204) -/

/-- A record as a read at the load finds it: a word passed on uncorrected makes it fail (R201). -/
def Nv.readRecord {α : Type} (nv : Nv) (f : StoreWord → Bool) : Stored α → Stored α
  | .record a => if nv.upsets.any fun u => f u.word && nv.corrupts u.word then .failsCheck else .record a
  | x => x

/-- Whether the load corrects a word of the three kinds of record (R201). -/
def Nv.loadCorrects (nv : Nv) : Bool :=
  nv.upsets.any fun u => !(u.word.ofImage .listener || u.word.ofImage .voice) && nv.corrects u.word

/-- A loaded value with its outcome. -/
def loadValue {α : Type} (dflt : α) : Stored α → α × LoadOutcome
  | .record a => (a, .loaded)
  | .erased => (dflt, .blank)
  | .failsCheck => (dflt, .checkFailed)

/-- A loaded header: LOADING, a failed check and an erased region load as EMPTY (R204). -/
def loadHeader : Stored ImageHeader → ImageHeader
  | .record (.sealed r n c) => .sealed r n c
  | _ => .empty

/-- The end of the start-up load (R204). -/
def Part.load (p : Part) (nv : Nv) : Part :=
  let f := loadValue Profile.default (nv.readRecord StoreWord.ofProfile nv.profile)
  let l := loadValue [] (nv.readRecord StoreWord.ofRetire nv.retire)
  let q : Part :=
    { p with
      profile := f.1
      retireList := l.1
      listenerSlot := loadHeader (nv.readRecord (·.ofHeader .listener) nv.listenerHeader)
      voiceSlot := loadHeader (nv.readRecord (·.ofHeader .voice) nv.voiceHeader)
      zones := Vector.ofFn fun z => Zone.initial (if f.1.zones[z].enable then .down else .disabled)
      racks := Vector.ofFn fun r =>
        if f.1.rackEnable[r] then Rack.initial .offline (some (p.now + Config.pollPeriod))
        else Rack.initial .disabled none
      store := { p.store with
        loading := false, profileOutcome := f.2, retireOutcome := l.2, corrected := nv.loadCorrects } }
  q.raise .system .start

/-! ### Changes of the working profile (R202) -/

/-- A setup order for every ONLINE rack (R102). -/
def Part.orderSetup (p : Part) : Part :=
  { p with racks := p.racks.map fun k =>
      if k.state = .online then { k with setupOrder := some ⟨(), false⟩ } else k }

/-- Parameters that RACK_SETUP carries (R99). -/
def setupParam : NumParam → Bool
  | .voltLimit | .blinkRate | .flashRate | .pickRate => true
  | _ => false

/-- A parameter of the working profile is written, with the effect its owning rule gives (R202). The
recompute of displays that thresholds and alarm ask for is made at the end of the event. -/
def Part.setParam (p : Part) (q : Param) (v : SetValue) : Part :=
  let changed := p.profile.value q != v
  let p := { p with profile := p.profile.write q v }
  match q, v with
  | .zoneEnable z, .onOff b => p.enableZone z b
  | .rackEnable r, .onOff b => p.enableRack r b
  | .num n, _ =>
    if setupParam n && changed then p.orderSetup
    else if n = .readyLevel then p.readyEvalAll
    else p
  | _, _ => p

/-- The fields of a SET, in the order written (R202). -/
def Part.setParams (p : Part) (fs : List (Param × SetValue)) : Part :=
  fs.foldl (fun q f => q.setParam f.1 f.2) p

/-- Every parameter takes its default, each as a SET of it would (R203; log 10). -/
def Part.setDefaults (p : Part) : Part :=
  let q := p.setParams (allParams.map fun x => (x, Profile.default.value x))
  { q with profile := { q.profile with disabledKinds := [] } }

/-! ### Disabled event kinds (R188, R199) -/

/-- What is left of a report's attached fields when kinds leave its list (R199). -/
def dropAttached (gone : List EventKind) (a : Attached) : Attached :=
  let off (k : EventKind) := gone.contains k
  { evicted := if off .evicted then none else a.evicted
    strayFrom := if off .stray then none else a.strayFrom
    ended := a.ended.filter fun x => !off x.event
    offered := if off .rackRejected then none else a.offered
    presses := if off .buttonPressed then 0 else a.presses
    newFaults := if off .fault then [] else a.newFaults
    leftUnit := if off .unseated then none else a.leftUnit
    cameUnit := if off .seated then none else a.cameUnit
    listFull := if off .retireListFull then none else a.listFull }

/-- Kinds turned disabled leave every pending event list; an empty list withdraws its report (R199). -/
def Part.removeKinds (p : Part) (gone : List EventKind) : Part :=
  { p with reports := p.reports.filterMap fun r =>
      let ks := r.kinds.filter fun k => !gone.contains k
      if ks.isEmpty then none else some ⟨r.source, ks, dropAttached gone r.attached⟩ }

/-- Final records whose kind is turned disabled are freed (R188). -/
def Part.freeDisabled (p : Part) (gone : List EventKind) : Part :=
  allIssues.foldl (fun q n =>
    match (q.issue n).state.event with
    | some k => if gone.contains k then q.freeIssue n else q
    | none => q) p

/-- REPORT_ENABLE carried out: the kinds of `on` are enabled, then those of `off` disabled (R199). The disabled
kinds stand, and the reply's off field lists them, in the order of the table of R199: the model's choice
(log 33). -/
def Part.reportEnable (p : Part) (on off : List EventKind) : Part :=
  let before := p.profile.disabledKinds
  let after := allKinds.filter fun k => off.contains k || (before.contains k && !on.contains k)
  let gone := after.filter fun k => !before.contains k
  let p := { p with profile := { p.profile with disabledKinds := after } }
  (p.removeKinds gone).freeDisabled gone

end Sys2Proof.Machine
end

