-- ==== Sys2Proof/Machine/Link.lean ====
section
/-! DEFINITION. The link port (spec 11): the arbiter, the outstanding-command slot, BUSY replies, the frame
of every step (what is ignored during the start-up load, what is sent at its end), and full resets. -/

namespace Sys2Proof.Machine

/-! ### The arbiter (R196 to R198) -/

/-- Whether a pending report is urgent (R197). -/
def PendingReport.urgent (r : PendingReport) : Bool := r.kinds.any urgentKind

/-- The pending report of highest standing: urgent before routine, then natural order, in which the set
stands (R197). -/
def Part.topReport (p : Part) : Option PendingReport :=
  match p.reports.find? (·.urgent) with
  | some r => some r
  | none => p.reports.head?

/-- While the serializer is free, a ready reply is begun, otherwise the report of highest standing,
composed as it is taken (R196, R198). -/
def State.arbitrate (s : State) : State :=
  match s.link.line with
  | some _ => s
  | none =>
    match s.link.ready with
    | r :: rest => { s with link := { s.link with line := some (.reply r), ready := rest } }
    | [] =>
      match s.part.topReport with
      | none => s
      | some r =>
        { s with
          link := { s.link with line := some (.report (s.part.composeReport r)) }
          part := { s.part with reports := s.part.reports.filter fun x => x.source != r.source } }

/-! ### Replies (R194, R195) -/

/-- The outstanding command's reply becomes ready. -/
def State.reply (s : State) (r : ResultWord) (fs : Fields) : State :=
  match s.link.slot with
  | some x => { s with link := { s.link with ready := s.link.ready ++ [⟨true, x.tag, x.verb, r, fs⟩] } }
  | none => s

/-- BUSY replies waiting to be sent (R195). -/
def Link.busyWaiting (l : Link) : Nat := l.ready.countP fun r => !r.outstanding

/-- A command taken while the slot holds one: answered BUSY, or discarded while four wait (R195). -/
def State.busy (s : State) (tag : Byte) (verb : Text) : State :=
  if s.link.busyWaiting < Config.busyReplies then
    { s with link := { s.link with ready := s.link.ready ++ [⟨false, tag, verb, .busy, []⟩] } }
  else s

/-- The owner's answer (R194, R200, R204). -/
def State.settleAnswer (s : State) : Answer → State
  | .reply r fs => s.reply r fs
  | .waits => s
  | .restart =>
    let t := s.reply .ok []
    { t with link := { t.link with slot := t.link.slot.map fun x => { x with resetAfter := true } } }

/-- Whether commands and messages are discarded: the start-up load is in progress (R204). -/
def State.deaf (s : State) : Bool := s.part.store.loading

/-- What an owning block makes of a command: the part after it, and its answer (R194). -/
abbrev Owner := Nv → Part → Part × Answer

/-- A COMMAND that fills the empty slot and is handed to its owner (R194, R195). -/
def State.carryOut (s : State) (tag : Byte) (verb : Text) (owner : Owner) : State :=
  let r := owner s.nv s.part
  (({ s with link := { s.link with slot := some ⟨tag, verb, false⟩ }, part := r.1 } : State).settleAnswer
    r.2).arbitrate

/-- A COMMAND frame taken by R193 (cases 4 and 7), by the state of the slot (R195). A tag of 0 and a
part whose load has not ended discard it (R193, R204); the frame's end leaves the framer HUNTING. -/
def State.hostCommand (s : State) (tag : Byte) (verb : Text) (owner : Owner) : State :=
  if s.deaf then s
  else
    let s := { s with link := { s.link with framer := .hunting } }
    if tag = 0 then s
    else match s.link.slot with
      | some _ => (s.busy tag verb).arbitrate
      | none => s.carryOut tag verb owner

/-- An owner's refusal of a command (R194): the result word alone. -/
def refuse (p : Part) (r : ResultWord) : Part × Answer := (p, .reply r [])

/-- An event that is no command: nothing is taken during the load; the arbiter acts at its end. -/
def State.event (s : State) (f : State → State) : State := if s.deaf then s else (f s).arbitrate

/-- An event that changes the part alone. -/
def State.partEvent (s : State) (f : Nv → Part → Part) : State :=
  s.event fun s => { s with part := f s.nv s.part }

/-! ### Full reset (R204, R206) -/

/-- The rate the straps select (R206). -/
def strapBaud (x : Straps) : Nat :=
  match x.rate1, x.rate0 with
  | false, false => 115200
  | false, true => 460800
  | true, false => 921600
  | true, true => 115200

/-- A full reset: volatile state takes its reset values, the straps are read and the start-up load
begins; the store keeps what it holds but for an operation cut short (R200, R204). -/
def State.fullReset (s : State) (cause : ResetCause) (straps : Straps) : State where
  link    := Link.initial
  part    := Part.initial cause straps (strapBaud straps) (s.part.freeCount + 6)
  nv      := s.nv.interrupted s.part.freeCount s.part.store.op
  pending := s.pending

/-! ### The ends of sendings (R188, R195, R196, R198) -/

/-- The serializer becomes free. -/
def State.freeLine (s : State) : State := { s with link := { s.link with line := none } }

/-- The last byte of the outstanding reply has been sent; after RESTART's reply the full reset reads the
straps as they stand at that moment, levels of the outside that are a free value (R195, R204, R206;
log 8). -/
def State.replySent (s : State) : State :=
  match s.link.line with
  | some (.reply r) =>
    if r.outstanding then
      let t := { s.freeLine with link := { s.freeLine.link with slot := none } }
      match s.link.slot with
      | some x => if x.resetAfter then t.fullReset .restart (Config.strapsAtRestart s.part.freeCount) else t
      | none => t
    else s
  | _ => s

/-- The sending of a BUSY reply ends (R196). -/
def State.busyReplySent (s : State) : State :=
  match s.link.line with
  | some (.reply r) => if r.outstanding then s else s.freeLine
  | _ => s

/-- The sending of a report ends; the issue record it showed in a final state is freed (R188, R198). -/
def State.reportSent (s : State) : State :=
  match s.link.line with
  | some (.report r) =>
    let t := s.freeLine
    match r.source, r.final with
    | .issue n, some x => if t.part.issue n = x then { t with part := t.part.freeIssue n } else t
    | _, _ => t
  | _ => s

/-! ### Ends of store operations (R200) -/

/-- The engine's operation has ended: what it wrote stands in the store, the engine is IDLE or begins a
retire list save (R200). -/
def State.endOp (s : State) (op : StoreOp) : State :=
  { s with
    nv := s.nv.completed s.part op
    part := ({ s.part with store := { s.part.store with op := none } } : Part).startRetireSave }

end Sys2Proof.Machine
end

