-- ==== Sys2Proof/Machine/Parse.lean ====
section
/-! DEFINITION. The text record of a COMMAND body (R194): the syntax check of the link port and the host
verb, with its fields, that a record spells. -/

namespace Sys2Proof.Machine

/-! ### Characters and words -/

/-- The decimal digits. -/
def decimalDigits : Text := txt "0123456789"
/-- The letters of a verb or a word. -/
def upperLetters : Text := txt "ABCDEFGHIJKLMNOPQRSTUVWXYZ"
/-- The letters of a field name. -/
def lowerLetters : Text := txt "abcdefghijklmnopqrstuvwxyz"

def isDigit (c : Char) : Bool := decimalDigits.contains c

/-- Characters of a verb or a word (R194). -/
def isVerbChar (c : Char) : Bool := upperLetters.contains c || isDigit c || c == '_'

/-- Characters of a field name: lower-case names, with the digits, underscores and point that parameter
names hold (R194, spec 12 section 12.2). -/
def isNameChar (c : Char) : Bool := lowerLetters.contains c || isDigit c || c == '_' || c == '.'

/-- Codes 20 to 7E (R194). -/
def printable (b : Byte) : Bool := decide (0x20 ≤ b.toNat) && decide (b.toNat ≤ 0x7E)

def bodyText (body : List Byte) : Text := body.map fun b => Char.ofNat b.toNat

/-- The first word of a record. -/
def firstWord (t : Text) : Text := t.takeWhile (· != ' ')

/-- The verb a reply carries: the first word, or ? when it is not a verb's (R194, R195). -/
def echoVerb (body : List Byte) : Text :=
  let w := firstWord (bodyText body)
  if !w.isEmpty && w.all isVerbChar then w else txt "?"

/-! ### Fields: name=value (R194) -/

/-- A value as written: a label between quotes, or the characters up to the next space. -/
inductive Raw where
  | quoted (t : Text)
  | plain (t : Text)
deriving DecidableEq, Repr

/-- The characters before the first occurrence of one, and those after it. -/
def splitAt? (stop : Char) : List Char → Option (Text × List Char)
  | [] => none
  | c :: cs => if c = stop then some ([], cs) else (splitAt? stop cs).map fun x => (c :: x.1, x.2)

/-- A field and the characters after it; `none` when it is not written name=value or its label is not
closed. -/
def parseField (t : List Char) : Option ((Text × Raw) × List Char) :=
  match splitAt? '=' t with
  | none => none
  | some (name, rest) =>
    if name.isEmpty || !name.all isNameChar then none
    else match rest with
      | '"' :: label =>
        match splitAt? '"' label with
        | none => none
        | some (l, after) =>
          match after with
          | [] => some ((name, .quoted l), [])
          | ' ' :: _ => some ((name, .quoted l), after)
          | _ => none
      | _ =>
        let v := rest.takeWhile (· != ' ')
        if v.contains '"' then none else some ((name, .plain v), rest.dropWhile (· != ' '))

/-- The fields of a record after its verb, at most `fuel` of them, each after one or more spaces; spaces
at the end are accepted (log 15). -/
def parseFields : Nat → List Char → Option (List (Text × Raw))
  | 0, t => if t.all (· == ' ') then some [] else none
  | fuel + 1, t =>
    match t.dropWhile (· == ' ') with
    | [] => some []
    | u =>
      match parseField u with
      | none => none
      | some (f, rest) => (parseFields fuel rest).map fun fs => f :: fs

/-! ### Forms of values (R194) -/

/-- The value of decimal digits: each digit's place in their row. -/
def digitsVal (t : Text) : Nat := t.foldl (fun n c => 10 * n + decimalDigits.idxOf c) 0

def parseNum : Raw → HostField Nat
  | .plain t => if !t.isEmpty && t.all isDigit then .val (digitsVal t) else .bad
  | .quoted _ => .bad

/-- The value of a hexadecimal digit, its place in the row of sixteen; letters of either case (R194). -/
def hexVal (c : Char) : Option Nat :=
  match (decimalDigits ++ upperLetters.take 6).idxOf? c with
  | some d => some d
  | none => (decimalDigits ++ lowerLetters.take 6).idxOf? c

/-- The value of hexadecimal digits. -/
def hexNat : Text → Nat → Option Nat
  | [], n => some n
  | c :: cs, n => match hexVal c with
    | some d => hexNat cs (16 * n + d)
    | none => none

/-- Exactly 8 hexadecimal digits. -/
def parseHex8 : Raw → HostField (BitVec 32)
  | .plain t =>
    if t.length = 8 then
      match hexNat t 0 with
      | some n => .val (BitVec.ofNat 32 n)
      | none => .bad
    else .bad
  | .quoted _ => .bad

/-- A byte address of 1 to 6 hexadecimal digits (R170). -/
def parseAddr : Raw → HostField Nat
  | .plain t =>
    if 1 ≤ t.length ∧ t.length ≤ 6 then
      match hexNat t 0 with
      | some n => .val n
      | none => .bad
    else .bad
  | .quoted _ => .bad

/-- Bytes as pairs of hexadecimal digits. -/
def hexPairs : Text → Option (List Byte)
  | [] => some []
  | [_] => none
  | a :: b :: cs =>
    match hexVal a, hexVal b, hexPairs cs with
    | some x, some y, some l => some (BitVec.ofNat 8 (16 * x + y) :: l)
    | _, _, _ => none

/-- Hexadecimal data. -/
def parseData : Raw → HostField (List Byte)
  | .plain t => match hexPairs t with
    | some l => .val l
    | none => .bad
  | .quoted _ => .bad

/-- rack.bay (R194). Each part may have any number of digits and leading zeros, so that 3.7, 3.07 and 03.007 name
one bay: the model's choice (log 15). -/
def parseBay : Raw → HostField BayName
  | .plain t =>
    match splitAt? '.' t with
    | some (r, b) =>
      if !r.isEmpty && r.all isDigit && !b.isEmpty && b.all isDigit then
        .val ⟨digitsVal r, digitsVal b⟩
      else .bad
    | none => .bad
  | .quoted _ => .bad

/-- A label between double quotes. -/
def parseLabel : Raw → HostField Text
  | .quoted t => .val t
  | .plain _ => .bad

/-- One word of a table of words. -/
def parseWord {α : Type} (table : List (Text × α)) : Raw → HostField α
  | .plain t => match table.find? (·.1 == t) with
    | some x => .val x.2
    | none => .bad
  | .quoted _ => .bad

/-- The parts of a text between commas. -/
def splitCommas : Text → List Text
  | [] => [[]]
  | c :: cs =>
    match splitCommas cs with
    | [] => [[c]]
    | w :: ws => if c = ',' then [] :: w :: ws else (c :: w) :: ws

/-- The parts of a list; an empty text has none. -/
def listParts (t : Text) : List Text := if t.isEmpty then [] else splitCommas t

/-- Numbers joined by commas. -/
def parseNums (t : Text) : Option (List Nat) :=
  (listParts t).foldr (fun w acc =>
    match parseNum (.plain w), acc with
    | .val n, some l => some (n :: l)
    | _, _ => none) (some [])

def parseNumList : Raw → HostField (List Nat)
  | .plain t => match parseNums t with
    | some l => .val l
    | none => .bad
  | .quoted _ => .bad

def parseZoneSel : Raw → HostField ZoneSel
  | .plain t =>
    if t = txt "ALL" then .val .all
    else match parseNum (.plain t) with
      | .val n => .val (.one n)
      | _ => .bad
  | .quoted _ => .bad

def parseZoneList : Raw → HostField ZoneList
  | .plain t =>
    if t = txt "ALL" then .val .all
    else match parseNums t with
      | some l => .val (.list l)
      | none => .bad
  | .quoted _ => .bad

/-- The kind a word names. -/
def kindNamed (w : Text) : Option EventKind := allKinds.find? fun k => kindText k == w

def parseKinds : Raw → HostField KindList
  | .plain t =>
    if t = txt "ALL" then .val .all
    else .val (.list ((splitCommas t).map kindNamed))
  | .quoted _ => .bad

/-- The parameter a name names. -/
def paramNamed (w : Text) : Option Param := allParams.find? fun q => paramText q == w

def parseParams : Raw → HostField ParamList
  | .plain t =>
    if t = txt "ALL" then .val .all
    else .val (.list ((splitCommas t).map paramNamed))
  | .quoted _ => .bad

/-- The value of a SET field by its form (R202). -/
def parseSetValue : Raw → SetValue
  | .quoted t => .label t
  | .plain t =>
    if t = txt "on" then .onOff true
    else if t = txt "off" then .onOff false
    else if t = txt "ON_REMOVE" then .recovery .onRemove
    else if t = txt "ON_CLEAR" then .recovery .onClear
    else match parseNum (.plain t) with
      | .val n => .num n
      | _ => .bad

def classWords : List (Text × UnitClass) := [(txt "LISTENER", .listener), (txt "VOICE", .voice)]

def opWords : List (Text × MaintOp) := [(txt "READ", .read), (txt "WRITE", .write), (txt "ERASE", .erase)]

def areaWords : List (Text × Area) :=
  [(txt "BOOT", .boot), (txt "FIRMWARE", .firmware), (txt "TUNE", .tune)]

/-! ### Records -/

/-- The value of a field by its name; absent when it was not written. -/
def getField {α : Type} (fs : List (Text × Raw)) (name : String) (parse : Raw → HostField α) : HostField α :=
  match fs.find? (·.1 == txt name) with
  | some f => parse f.2
  | none => .absent

/-- Whether every name is one of a verb's and none appears twice (R194). -/
def namesOk (allowed : List Text) : List (Text × Raw) → Bool
  | [] => true
  | f :: fs => allowed.contains f.1 && !(fs.any (·.1 == f.1)) && namesOk allowed fs

/-- The fields of a SET: every name a parameter (R194, R202). -/
def parseSet : List (Text × Raw) → Option (List (Param × SetValue))
  | [] => some []
  | f :: fs =>
    match paramNamed f.1, parseSet fs with
    | some q, some l => some ((q, parseSetValue f.2) :: l)
    | _, _ => none

/-- A verb of the part: its field names and the command its fields make. -/
structure Verb where
  name   : Text
  fields : List Text
  make   : Byte → List (Text × Raw) → Instr

/-- A verb whose fields have the names given. -/
def verb (name : String) (fields : List String) (make : Byte → List (Text × Raw) → Instr) : Verb :=
  ⟨txt name, fields.map txt, make⟩

/-- The tour and unit verbs. -/
def verbsA : List Verb :=
  [verb "TOUR_OPEN" ["tour", "label", "floor", "capacity"] fun g f =>
      .tourOpen g (getField f "tour" parseNum) (getField f "label" parseLabel)
        (getField f "floor" parseNum) (getField f "capacity" parseNum),
   verb "TOUR_START" ["tour"] fun g f => .tourStart g (getField f "tour" parseNum),
   verb "TOUR_PAUSE" ["tour"] fun g f => .tourPause g (getField f "tour" parseNum),
   verb "TOUR_CLOSE" ["tour"] fun g f => .tourClose g (getField f "tour" parseNum),
   verb "TOUR_CAPACITY" ["tour", "capacity"] fun g f =>
      .tourCapacity g (getField f "tour" parseNum) (getField f "capacity" parseNum),
   verb "TOUR_READ" ["tour"] fun g f => .tourRead g (getField f "tour" parseNum),
   verb "TOUR_VOICE_ADD" ["tour", "language", "unit"] fun g f =>
      .tourVoiceAdd g (getField f "tour" parseNum) (getField f "language" parseNum)
        (getField f "unit" parseHex8),
   verb "TOUR_VOICE_DROP" ["tour", "language"] fun g f =>
      .tourVoiceDrop g (getField f "tour" parseNum) (getField f "language" parseNum),
   verb "UNIT_READ" ["unit"] fun g f => .unitRead g (getField f "unit" parseHex8),
   verb "UNIT_LIST" ["start", "count"] fun g f =>
      .unitList g (getField f "start" parseNum) (getField f "count" parseNum),
   verb "UNIT_FORGET" ["unit"] fun g f => .unitForget g (getField f "unit" parseHex8),
   verb "UNIT_UNASSIGN" ["unit"] fun g f => .unitUnassign g (getField f "unit" parseHex8),
   verb "UNIT_RETUNE" ["unit", "tour", "language"] fun g f =>
      .unitRetune g (getField f "unit" parseHex8) (getField f "tour" parseNum)
        (getField f "language" parseNum),
   verb "UNIT_LOCATE" ["unit"] fun g f => .unitLocate g (getField f "unit" parseHex8),
   verb "UNIT_RETIRE" ["unit"] fun g f => .unitRetire g (getField f "unit" parseHex8),
   verb "RETIRE_PURGE" ["unit"] fun g f => .retirePurge g (getField f "unit" parseHex8),
   verb "RETIRE_LIST" ["start", "count"] fun g f =>
      .retireList g (getField f "start" parseNum) (getField f "count" parseNum)]

/-- The zone, house, rack and bay verbs. -/
def verbsB : List Verb :=
  [verb "ZONE_READ" ["zone"] fun g f => .zoneRead g (getField f "zone" parseNum),
   verb "ZONE_SLOTS" ["zone"] fun g f => .zoneSlots g (getField f "zone" parseNum),
   verb "ZONE_STATS_CLEAR" ["zone"] fun g f => .zoneStatsClear g (getField f "zone" parseZoneSel),
   verb "HOUSE_START" ["zones", "languages"] fun g f =>
      .houseStart g (getField f "zones" parseZoneList) (getField f "languages" parseNumList),
   verb "HOUSE_ZONES" ["zones"] fun g f => .houseZones g (getField f "zones" parseZoneList),
   verb "HOUSE_STOP" [] fun g _ => .houseStop g,
   verb "HOUSE_READ" [] fun g _ => .houseRead g,
   verb "RACK_READ" ["rack"] fun g f => .rackRead g (getField f "rack" parseNum),
   verb "BAY_READ" ["bay"] fun g f => .bayRead g (getField f "bay" parseBay),
   verb "BAY_DISABLE" ["bay"] fun g f => .bayDisable g (getField f "bay" parseBay),
   verb "BAY_ENABLE" ["bay"] fun g f => .bayEnable g (getField f "bay" parseBay),
   verb "FAULT_CLEAR" ["bay"] fun g f => .faultClear g (getField f "bay" parseBay),
   verb "FAULT_READ" ["bay"] fun g f => .faultRead g (getField f "bay" parseBay)]

/-- The provisioning verbs. -/
def verbsC : List Verb :=
  [verb "CHANNEL_CLEAR" ["channel"] fun g f => .channelClear g (getField f "channel" parseNum),
   verb "CHANNEL_STOP" ["channel"] fun g f => .channelStop g (getField f "channel" parseNum),
   verb "CHANNEL_READ" ["channel"] fun g f => .channelRead g (getField f "channel" parseNum),
   verb "JOB_MAINT" ["bay", "op", "area", "addr", "count", "data"] fun g f =>
      .jobMaint g (getField f "bay" parseBay) (getField f "op" (parseWord opWords))
        (getField f "area" (parseWord areaWords)) (getField f "addr" parseAddr)
        (getField f "count" parseNum) (getField f "data" parseData),
   verb "JOB_REFRESH" ["bay"] fun g f => .jobRefresh g (getField f "bay" parseBay),
   verb "JOB_CANCEL" ["job"] fun g f => .jobCancel g (getField f "job" parseNum),
   verb "JOB_READ" ["job"] fun g f => .jobRead g (getField f "job" parseNum),
   verb "JOB_QUEUE_READ" [] fun g _ => .jobQueueRead g,
   verb "JOB_STATS_CLEAR" [] fun g _ => .jobStatsClear g,
   verb "IMAGE_BEGIN" ["slot", "revision", "pages", "checksum"] fun g f =>
      .imageBegin g (getField f "slot" (parseWord classWords)) (getField f "revision" parseNum)
        (getField f "pages" parseNum) (getField f "checksum" parseHex8),
   verb "IMAGE_PAGE" ["slot", "page", "data"] fun g f =>
      .imagePage g (getField f "slot" (parseWord classWords)) (getField f "page" parseNum)
        (getField f "data" parseData),
   verb "IMAGE_SEAL" ["slot"] fun g f => .imageSeal g (getField f "slot" (parseWord classWords)),
   verb "IMAGE_READ" ["slot"] fun g f => .imageRead g (getField f "slot" (parseWord classWords))]

/-- The issue and settings verbs; SET has its own fields. -/
def verbsD : List Verb :=
  [verb "ISSUE" ["rack", "class", "unit", "tour", "language"] fun g f =>
      .issue g (getField f "rack" parseNum) (getField f "class" (parseWord classWords))
        (getField f "unit" parseHex8) (getField f "tour" parseNum) (getField f "language" parseNum),
   verb "ISSUE_CANCEL" ["issue"] fun g f => .issueCancel g (getField f "issue" parseNum),
   verb "ISSUE_READ" ["issue"] fun g f => .issueRead g (getField f "issue" parseNum),
   verb "REPORT_ENABLE" ["on", "off"] fun g f =>
      .reportEnable g (getField f "on" parseKinds) (getField f "off" parseKinds),
   verb "GET" ["names"] fun g f => .get g (getField f "names" parseParams),
   verb "PROFILE_SAVE" [] fun g _ => .profileSave g,
   verb "STORE_FORMAT" [] fun g _ => .storeFormat g,
   verb "RESTART" [] fun g _ => .restart g,
   verb "STATUS" [] fun g _ => .status g]

def allVerbs : List Verb := verbsA ++ verbsB ++ verbsC ++ verbsD

/-- The host verb a COMMAND body spells, or `none` when the link port answers BADARG (R194). -/
def parseCommand (tag : Byte) (body : List Byte) : Option Instr :=
  if body.all printable then
    let t := bodyText body
    let w := firstWord t
    match parseFields t.length (t.drop w.length) with
    | none => none
    | some fs =>
      if w = txt "SET" then
        if namesOk (fs.map (·.1)) fs then (parseSet fs).map fun l => .set tag l else none
      else match allVerbs.find? (·.name == w) with
        | some v => if namesOk v.fields fs then some (v.make tag fs) else none
        | none => none
  else none

end Sys2Proof.Machine
end

