-- ==== Sys2Proof/Machine/TourRows.lean ====
section
/-! DEFINITION. The tour commands (R3 to R11). Each has its owner's part, `own…`, and its meaning. -/

namespace Sys2Proof.Machine

/-- The answer of a step that stays in the machine: no command of the part stops it. -/
abbrev Result := Host.Outcome State Fault Refusal

/-- TOUR_OPEN (R3). -/
def ownTourOpen (tour : HostField Nat) (label : HostField Text) (floor capacity : HostField Nat) : Owner := fun _ p =>
  match tourField tour, labelField label, langField floor, rangeField 1 250 capacity with
  | some t, some name, some l, some n =>
    if !p.langEnabled l then refuse p .badArg
    else if (p.tour t).state ≠ .free then refuse p .state
    else
      ((p.setTour t ⟨.forming, name, some l, n, 0, []⟩).raise (.tour t) .state,
       .reply .ok [fld "tour" (tourText t)])
  | _, _, _, _ => refuse p .badArg

def execTourOpen (tag : Byte) (tour : HostField Nat) (label : HostField Text) (floor capacity : HostField Nat)
    (s : State) : Result :=
  .next (s.hostCommand tag (txt "TOUR_OPEN") (ownTourOpen tour label floor capacity))

/-- TOUR_START (R4). -/
def ownTourStart (tour : HostField Nat) : Owner := fun _ p =>
  match tourField tour with
  | none => refuse p .badArg
  | some t =>
    let k := p.tour t
    if k.state ≠ .forming ∧ k.state ≠ .paused then refuse p .state
    else if !k.hasFloor then refuse p .state
    else
      ((p.restream (p.setTour t { k with state := .live })).raise (.tour t) .state, .reply .ok [])

def execTourStart (tag : Byte) (tour : HostField Nat) (s : State) : Result :=
  .next (s.hostCommand tag (txt "TOUR_START") (ownTourStart tour))

/-- TOUR_PAUSE (R5). -/
def ownTourPause (tour : HostField Nat) : Owner := fun _ p =>
  match tourField tour with
  | none => refuse p .badArg
  | some t =>
    let k := p.tour t
    if k.state ≠ .live then refuse p .state
    else
      ((p.restream (p.setTour t { k with state := .paused })).raise (.tour t) .state, .reply .ok [])

def execTourPause (tag : Byte) (tour : HostField Nat) (s : State) : Result :=
  .next (s.hostCommand tag (txt "TOUR_PAUSE") (ownTourPause tour))

/-- TOUR_CLOSE carried out in FORMING, LIVE or PAUSED (R6). The removals of several sources reach a zone in the
order of the source list, which the spec leaves open: the model's choice (log 9). -/
def Part.closeTour (p : Part) (t : TourNo) : Part :=
  let sources := (p.tour t).sources
  let q := sources.foldl (fun q x => q.dropSource t x) p
  let q := q.endNotices (q.retunesNaming t)
  let k := q.tour t
  let q := p.restream (q.setTour t (if k.count = 0 then Tour.free else { k with state := .closing }))
  let q := q.raise (.tour t) .state
  if sources.isEmpty then q else q.raise (.tour t) .sources

/-- TOUR_CLOSE (R6). The field that carries the resulting state is named `state`, the model's choice
(log 33). -/
def ownTourClose (tour : HostField Nat) : Owner := fun _ p =>
  match tourField tour with
  | none => refuse p .badArg
  | some t =>
    match (p.tour t).state with
    | .free => refuse p .state
    | .closing => (p, .reply .ok [fld "state" (tourStateText .closing)])
    | _ =>
      let q := p.closeTour t
      (q, .reply .ok [fld "state" (tourStateText (q.tour t).state)])

def execTourClose (tag : Byte) (tour : HostField Nat) (s : State) : Result :=
  .next (s.hostCommand tag (txt "TOUR_CLOSE") (ownTourClose tour))

/-- TOUR_CAPACITY (R8). -/
def ownTourCapacity (tour capacity : HostField Nat) : Owner := fun _ p =>
  match tourField tour, rangeField 1 250 capacity with
  | some t, some n =>
    let k := p.tour t
    if k.state = .free then refuse p .state
    else if n < k.count then refuse p .state
    else (p.setTour t { k with capacity := n }, .reply .ok [fld "capacity" (numText n)])
  | _, _ => refuse p .badArg

def execTourCapacity (tag : Byte) (tour capacity : HostField Nat) (s : State) : Result :=
  .next (s.hostCommand tag (txt "TOUR_CAPACITY") (ownTourCapacity tour capacity))

/-- TOUR_READ (R9). -/
def ownTourRead (tour : HostField Nat) : Owner := fun _ p =>
  match tourField tour with
  | none => refuse p .badArg
  | some t => (p, .reply .ok (p.tourFields t))

def execTourRead (tag : Byte) (tour : HostField Nat) (s : State) : Result :=
  .next (s.hostCommand tag (txt "TOUR_READ") (ownTourRead tour))

/-- TOUR_VOICE_ADD carried out (R10). -/
def Part.addSource (p : Part) (t : TourNo) (l : LangNo) (e : Entry) : Part :=
  let q := p.modTour t fun k => { k with sources := k.sources ++ [(l, e.unit)] }
  let q := match e.airZone with
    | some z => q.claimUplink z e.unit (q.isFloor ⟨t, l⟩)
    | none => q
  (p.restream q).raise (.tour t) .sources

/-- TOUR_VOICE_ADD (R10). -/
def ownTourVoiceAdd (tour language : HostField Nat) (unit : HostField UnitId) : Owner := fun _ p =>
  match tourField tour, langField language, unitField unit with
  | some t, some l, some u =>
    let k := p.tour t
    if !p.langEnabled l then refuse p .badArg
    else if !k.state.open then refuse p .state
    else match p.entry u with
      | none => refuse p .noSuch
      | some e =>
        if e.cls = .listener then refuse p .badArg
        else if e.retired = true ∨ e.state = .docked then refuse p .state
        else if (p.sourceOf u).isSome then refuse p .inUse
        else if (k.source l).isSome then refuse p .inUse
        else if Config.sourcesMax ≤ k.sources.length then refuse p .full
        else (p.addSource t l e, .reply .ok [])
  | _, _, _ => refuse p .badArg

def execTourVoiceAdd (tag : Byte) (tour language : HostField Nat) (unit : HostField UnitId) (s : State) : Result :=
  .next (s.hostCommand tag (txt "TOUR_VOICE_ADD") (ownTourVoiceAdd tour language unit))

/-- TOUR_VOICE_DROP (R11). -/
def ownTourVoiceDrop (tour language : HostField Nat) : Owner := fun _ p =>
  match tourField tour, langField language with
  | some t, some l =>
    let k := p.tour t
    if k.state = .free then refuse p .state
    else match k.source l with
      | none => refuse p .noSuch
      | some u =>
        if k.floor = some l ∧ k.state = .live then refuse p .state
        else
          ((p.restream (p.dropSource t (l, u))).raise (.tour t) .sources,
           .reply .ok [fld "unit" (hex8 u)])
  | _, _ => refuse p .badArg

def execTourVoiceDrop (tag : Byte) (tour language : HostField Nat) (s : State) : Result :=
  .next (s.hostCommand tag (txt "TOUR_VOICE_DROP") (ownTourVoiceDrop tour language))

end Sys2Proof.Machine
end

