-- ==== Sys2Proof/Machine/UnitRows.lean ====
section
/-! DEFINITION. The unit commands and the unit table's timers (R32, R39 to R42, R81, R83, R84, R134, R136,
R137). -/

namespace Sys2Proof.Machine

/-- UNIT_READ (R39). -/
def ownUnitRead (unit : HostField UnitId) : Owner := fun _ p =>
  match unitField unit with
  | none => refuse p .badArg
  | some u =>
    match p.find u with
    | none => refuse p .noSuch
    | some (i, e) => (p, .reply .ok (p.unitFields i e))

def execUnitRead (tag : Byte) (unit : HostField UnitId) (s : State) : Result :=
  .next (s.hostCommand tag (txt "UNIT_READ") (ownUnitRead unit))

/-- UNIT_LIST (R40). -/
def ownUnitList (start count : HostField Nat) : Owner := fun _ p =>
  match rangeField 0 1023 start, rangeField 1 16 count with
  | some a, some n =>
    (p, .reply .ok
      [fld "entries" (commas ((List.range (min n (Config.tableSize - a))).map fun i => p.placeText (a + i))),
       fld "next" (if a + n ≤ 1023 then numText (a + n) else txt "END")])
  | _, _ => refuse p .badArg

def execUnitList (tag : Byte) (start count : HostField Nat) (s : State) : Result :=
  .next (s.hostCommand tag (txt "UNIT_LIST") (ownUnitList start count))

/-- UNIT_FORGET (R41). -/
def ownUnitForget (unit : HostField UnitId) : Owner := fun _ p =>
  match unitField unit with
  | none => refuse p .badArg
  | some u =>
    match p.find u with
    | none => refuse p .noSuch
    | some (i, e) =>
      if e.state = .docked then refuse p .state
      else ((p.strip u).removeEntry u, .reply .ok [fld "index" (numText i)])

def execUnitForget (tag : Byte) (unit : HostField UnitId) (s : State) : Result :=
  .next (s.hostCommand tag (txt "UNIT_FORGET") (ownUnitForget unit))

/-- UNIT_UNASSIGN (R42). -/
def ownUnitUnassign (unit : HostField UnitId) : Owner := fun _ p =>
  match unitField unit with
  | none => refuse p .badArg
  | some u =>
    match p.entry u with
    | none => refuse p .noSuch
    | some e =>
      if e.assignment.isNone then refuse p .state
      else
        let q := p.unassign u
        (if e.state = .onAir then q.raiseNotice u .untune none false else q, .reply .ok [])

def execUnitUnassign (tag : Byte) (unit : HostField UnitId) (s : State) : Result :=
  .next (s.hostCommand tag (txt "UNIT_UNASSIGN") (ownUnitUnassign unit))

/-- The fields of the UNIT_RETUNE and UNIT_LOCATE replies (R83, R84); zones is - where the notice is queued in
no zone, the model's choice (log 33). -/
def Part.noticeFields (p : Part) (u : UnitId) (seq : BitVec 4) : Fields :=
  [fld "seq" (numText seq.toNat), fld "life" (numText p.profile.noticeLife),
   fld "zones" (zonesText (p.queuedZones u))]

/-- The tour's count as UNIT_RETUNE's check 7 takes it: the entry's own reservation on the tour is
counted as free (R83). -/
def Part.countWithout (p : Part) (t : TourNo) (e : Entry) : Nat :=
  match e.notice with
  | some n => if n.reserving && (n.target.map (·.tour)) == some t then (p.tour t).count - 1 else (p.tour t).count
  | none => (p.tour t).count

/-- UNIT_RETUNE (R83). -/
def ownUnitRetune (unit : HostField UnitId) (tour language : HostField Nat) : Owner := fun _ p =>
  match unitField unit, tourField tour, langField language with
  | some u, some t, some l =>
    match p.entry u with
    | none => refuse p .noSuch
    | some e =>
      if e.cls = .voice then refuse p .badArg
      else if e.state = .docked ∨ e.retired = true then refuse p .state
      else if !p.langEnabled l then refuse p .badArg
      else if !(p.tour t).state.open then refuse p .state
      else if (p.tour t).capacity ≤ p.countWithout t e then refuse p .full
      else if !p.noticeRoom e then refuse p .full
      else
        let q := p.raiseNotice u .retune (some ⟨t, l⟩) true
        (q, .reply .ok (q.noticeFields u e.nextSeq))
  | _, _, _ => refuse p .badArg

def execUnitRetune (tag : Byte) (unit : HostField UnitId) (tour language : HostField Nat) (s : State) : Result :=
  .next (s.hostCommand tag (txt "UNIT_RETUNE") (ownUnitRetune unit tour language))

/-- UNIT_LOCATE (R84). -/
def ownUnitLocate (unit : HostField UnitId) : Owner := fun _ p =>
  match unitField unit with
  | none => refuse p .badArg
  | some u =>
    match p.entry u with
    | none => refuse p .noSuch
    | some e =>
      if e.state = .docked then refuse p .state
      else if !p.noticeRoom e then refuse p .full
      else
        let q := p.raiseNotice u .locate none false
        (q, .reply .ok (q.noticeFields u e.nextSeq))

def execUnitLocate (tag : Byte) (unit : HostField UnitId) (s : State) : Result :=
  .next (s.hostCommand tag (txt "UNIT_LOCATE") (ownUnitLocate unit))

/-- UNIT_RETIRE (R134). A command refused FULL for an id without an entry raises nothing, the model's choice
(R135, R138; log 38). -/
def ownUnitRetire (unit : HostField UnitId) : Owner := fun nv p =>
  match unitField unit with
  | none => refuse p .badArg
  | some u =>
    let listed (q : Part) := fld "listed" (bit (q.retireList.contains u))
    match p.find u with
    | none =>
      if p.retireList.contains u then (p, .reply .ok [listed p, fld "index" dash])
      else if Config.retireListSize ≤ p.retireList.length then refuse p .full
      else
        let q := (p.listRetired u).finish nv
        (q, .reply .ok [listed q, fld "index" dash])
    | some (i, _) =>
      let q := (p.retire u).finish nv
      (q, .reply .ok [listed q, fld "index" (numText i)])

def execUnitRetire (tag : Byte) (unit : HostField UnitId) (s : State) : Result :=
  .next (s.hostCommand tag (txt "UNIT_RETIRE") (ownUnitRetire unit))

/-- RETIRE_PURGE's effect on the entry, and the field cleared (R136). -/
def Part.purgeEntry (p : Part) (u : UnitId) : Part × Text :=
  match p.entry u with
  | none => (p, dash)
  | some e =>
    match e.state, e.bay with
    | .docked, some b => (p.modBay b fun y => { y with release := true }, txt "AT_REMOVAL")
    | _, _ => (p.modEntry u fun e => { e with retired := false }, txt "NOW")

/-- RETIRE_PURGE (R136). -/
def ownRetirePurge (unit : HostField UnitId) : Owner := fun nv p =>
  match unitField unit with
  | none => refuse p .badArg
  | some u =>
    let listed := p.retireList.contains u
    if !listed && !(match p.entry u with | some e => e.retired | none => false) then refuse p .noSuch
    else
      let r := (p.unlistRetired u).purgeEntry u
      (r.1.finish nv, .reply .ok [fld "listed" (bit listed), fld "cleared" r.2])

def execRetirePurge (tag : Byte) (unit : HostField UnitId) (s : State) : Result :=
  .next (s.hostCommand tag (txt "RETIRE_PURGE") (ownRetirePurge unit))

/-- RETIRE_LIST (R137). -/
def ownRetireList (start count : HostField Nat) : Owner := fun _ p =>
  match rangeField 0 1023 start, rangeField 1 16 count with
  | some a, some n =>
    let total := p.retireList.length
    (p, .reply .ok
      [fld "total" (numText total), fld "ids" (commasOrDash (((p.retireList.drop a).take n).map hex8)),
       fld "next" (if a + n < total then numText (a + n) else txt "END")])
  | _, _ => refuse p .badArg

def execRetireList (tag : Byte) (start count : HostField Nat) (s : State) : Result :=
  .next (s.hostCommand tag (txt "RETIRE_LIST") (ownRetireList start count))

/-- SILENCE_EXPIRY: the running silence timer of an OUT or ON_AIR entry runs out (R32). -/
def Part.silenceExpiry (p : Part) (u : UnitId) : Part :=
  match p.entry u with
  | none => p
  | some e =>
    match e.silence with
    | none => p
    | some d =>
      let p := p.reach d
      let q := p.modEntry u fun e => { e with state := .silent, zone := none, silence := none }
      let q := match e.airZone with | some z => q.leaveZone e z | none => q
      let q := if e.zone.isSome then q.rehomeNotice u (p.homes e.zone) (p.homes none) else q
      q.raiseUnit u .silent id

def execSilenceExpiry (u : UnitId) (s : State) : Result :=
  .next (s.partEvent fun _ p => p.silenceExpiry u)

/-- NOTICE_LIFE_EXPIRY: the life of a pending notice runs out (R81). -/
def Part.noticeExpiry (p : Part) (u : UnitId) : Part :=
  match (p.entry u).bind (·.notice) with
  | none => p
  | some n =>
    ((p.reach n.deadline).endNotice u).raiseUnit u .noticeTimeout
      (noteEnd ⟨.noticeTimeout, n.kind, n.seq, false⟩)

def execNoticeLifeExpiry (u : UnitId) (s : State) : Result :=
  .next (s.partEvent fun _ p => p.noticeExpiry u)

end Sys2Proof.Machine
end

