-- ==== Sys2Proof/Machine/ZoneRows.lean ====
section
/-! DEFINITION. The zone and house commands, and the events of the heads, the air and the house period
(R32, R47, R48, R51, R57, R68 to R70, R88 to R93, R96). -/

namespace Sys2Proof.Machine

/-! ### Zone commands -/

/-- ZONE_READ (R68). -/
def ownZoneRead (zone : HostField Nat) : Owner := fun _ p =>
  match zoneField zone with
  | none => refuse p .badArg
  | some z => (p, .reply .ok (p.zoneFields z))

def execZoneRead (tag : Byte) (zone : HostField Nat) (s : State) : Result :=
  .next (s.hostCommand tag (txt "ZONE_READ") (ownZoneRead zone))

/-- ZONE_SLOTS (R69). -/
def ownZoneSlots (zone : HostField Nat) : Owner := fun _ p =>
  match zoneField zone with
  | none => refuse p .badArg
  | some z => (p, .reply .ok (p.slotFields z))

def execZoneSlots (tag : Byte) (zone : HostField Nat) (s : State) : Result :=
  .next (s.hostCommand tag (txt "ZONE_SLOTS") (ownZoneSlots zone))

/-- The zones ZONE_STATS_CLEAR names; `none` for any other value (R70). -/
def statsZones : HostField ZoneSel → Option (List ZoneNo)
  | .val .all => some allZones
  | .val (.one n) => (zoneField (.val n)).map fun z => [z]
  | _ => none

/-- The peak counters take the present values (R70). -/
def Zone.clearStats (x : Zone) : Zone :=
  { x with peakSlots := x.slotsHeld, peakWaiting := x.waitQueue.length }

/-- ZONE_STATS_CLEAR (R70). -/
def ownZoneStatsClear (zone : HostField ZoneSel) : Owner := fun _ p =>
  match statsZones zone with
  | none => refuse p .badArg
  | some zs => (zs.foldl (fun q z => q.modZone z Zone.clearStats) p, .reply .ok [])

def execZoneStatsClear (tag : Byte) (zone : HostField ZoneSel) (s : State) : Result :=
  .next (s.hostCommand tag (txt "ZONE_STATS_CLEAR") (ownZoneStatsClear zone))

/-! ### House commands -/

/-- HOUSE_START (R88). The field placed lists its zones ascending, the model's choice (log 33). -/
def ownHouseStart (zones : HostField ZoneList) (languages : HostField (List Nat)) : Owner := fun _ p =>
  match zoneSetField zones, languagesField languages with
  | some zs, some ls =>
    if ls.any fun l => !p.langEnabled l then refuse p .badArg
    else if p.house.running then refuse p .state
    else (p.houseStart zs ls,
      .reply .ok [fld "tracks" (numText ls.length), fld "placed" (zonesText (p.upZones zs))])
  | _, _ => refuse p .badArg

def execHouseStart (tag : Byte) (zones : HostField ZoneList) (languages : HostField (List Nat)) (s : State) : Result :=
  .next (s.hostCommand tag (txt "HOUSE_START") (ownHouseStart zones languages))

/-- HOUSE_ZONES (R89). -/
def ownHouseZones (zones : HostField ZoneList) : Owner := fun _ p =>
  match zoneSetField zones with
  | none => refuse p .badArg
  | some zs =>
    if !p.house.running then refuse p .state
    else (p.houseZones zs, .reply .ok [fld "zones" (zonesText zs)])

def execHouseZones (tag : Byte) (zones : HostField ZoneList) (s : State) : Result :=
  .next (s.hostCommand tag (txt "HOUSE_ZONES") (ownHouseZones zones))

/-- HOUSE_STOP (R90). -/
def ownHouseStop : Owner := fun _ p =>
  if !p.house.running then refuse p .state else (p.houseStop, .reply .ok [])

def execHouseStop (tag : Byte) (s : State) : Result :=
  .next (s.hostCommand tag (txt "HOUSE_STOP") ownHouseStop)

/-- HOUSE_READ (R96). -/
def ownHouseRead : Owner := fun _ p => (p, .reply .ok p.houseFields)

def execHouseRead (tag : Byte) (s : State) : Result :=
  .next (s.hostCommand tag (txt "HOUSE_READ") ownHouseRead)

/-! ### Zone heads and the air -/

/-- ZONE_HELLO: a HELLO from a head (R47). -/
def execZoneHello (z : ZoneNo) (s : State) : Result :=
  .next (s.partEvent fun _ p => p.zoneHello z)

/-- CYCLE_MARK: a boundary of an UP zone, discarded otherwise (R47, R51). -/
def execCycleMark (z : ZoneNo) (m : CycleMark) (s : State) : Result :=
  .next (s.partEvent fun _ p => if (p.zone z).state = .up then p.boundary z m else p)

/-- The down timer of an UP zone runs out (R48, R65). -/
def Part.downExpiry (p : Part) (z : ZoneNo) : Part :=
  match (p.zone z).state, (p.zone z).downTimer with
  | .up, some d => (p.reach d).teardownZone z .down
  | _, _ => p

/-- DOWN_TIMER_EXPIRY (R48). -/
def execDownTimerExpiry (z : ZoneNo) (s : State) : Result :=
  .next (s.partEvent fun _ p => p.downExpiry z)

/-- LINGER_EXPIRY: a lingering carriage of an UP zone is removed and its slot serves the wait queue (R57;
log 3). -/
def execLingerExpiry (z : ZoneNo) (st : CarrStream) (s : State) : Result :=
  .next (s.partEvent fun _ p =>
    if (p.zone z).state = .up then p.modZone z (·.expireLinger st) else p)

/-- HOUSE_PERIOD_ELAPSE: the house period timer elapses and advance due is set (R93). -/
def Part.houseElapse (p : Part) : Part :=
  match p.house.period with
  | none => p
  | some d =>
    let p := p.reach d
    { p with house := { p.house with advanceDue := true, period := some (d + Config.housePeriod) } }

def execHousePeriodElapse (s : State) : Result := .next (s.partEvent fun _ p => p.houseElapse)

/-- AUDIO: an accepted AUDIO frame is handed to the house controller (R92); a tag outside 1 to 4 or an
empty body discards it (R193). The frame's end leaves the framer HUNTING. -/
def State.audio (s : State) (track : Byte) (body : List Byte) : State :=
  let s := { s with link := { s.link with framer := .hunting } }
  if 1 ≤ track.toNat ∧ track.toNat ≤ 4 ∧ body ≠ [] then
    { s with part := { s.part with house := s.part.house.audio track body } }
  else s

def execAudio (track : Byte) (body : List Byte) (s : State) : Result :=
  .next (s.event fun s => s.audio track body)

end Sys2Proof.Machine
end

