-- ==== Sys2Proof/Machine/RackRows.lean ====
section
/-! DEFINITION. The rack, bay and fault commands, the messages of the rack bus and the timers of the racks
(R100 to R105, R117 to R120, R124, R131, R132, R146, R147). -/

namespace Sys2Proof.Machine

/-! ### Commands -/

/-- RACK_READ (R119). -/
def ownRackRead (rack : HostField Nat) : Owner := fun _ p =>
  match rackField rack with
  | none => refuse p .badArg
  | some r => (p, .reply .ok (p.rackFields r))

def execRackRead (tag : Byte) (rack : HostField Nat) (s : State) : Result :=
  .next (s.hostCommand tag (txt "RACK_READ") (ownRackRead rack))

/-- BAY_READ (R120). -/
def ownBayRead (bay : HostField BayName) : Owner := fun _ p =>
  match bayField bay with
  | none => refuse p .badArg
  | some b => if !p.present b then refuse p .noSuch else (p, .reply .ok (p.bayFields b))

def execBayRead (tag : Byte) (bay : HostField BayName) (s : State) : Result :=
  .next (s.hostCommand tag (txt "BAY_READ") (ownBayRead bay))

/-- BAY_DISABLE (R117). -/
def ownBayDisable (bay : HostField BayName) : Owner := fun nv p =>
  match bayField bay with
  | none => refuse p .badArg
  | some b =>
    if !p.present b then refuse p .noSuch
    else if (p.bay b).job.isSome || p.issueNamesBay b then refuse p .inUse
    else if !(p.bay b).enable then (p, .reply .ok [])
    else ((p.disableBay b).finish nv, .reply .ok [])

def execBayDisable (tag : Byte) (bay : HostField BayName) (s : State) : Result :=
  .next (s.hostCommand tag (txt "BAY_DISABLE") (ownBayDisable bay))

/-- BAY_ENABLE carried out (R118). -/
def Part.enableBay (p : Part) (b : BayRef) : Part :=
  let y := p.bay b
  let p := p.setBay b { y with strikes := 0, enable := true }
  if y.enable then p
  else
    let p := p.raise (.bay b) .bayEnabled
    let p := if (p.rack b.rack).state = .online ∧ y.occupant.isSome = true then p.sessionStart b else p
    p.readyEval b

/-- BAY_ENABLE (R118). -/
def ownBayEnable (bay : HostField BayName) : Owner := fun nv p =>
  match bayField bay with
  | none => refuse p .badArg
  | some b =>
    if !p.present b then refuse p .noSuch else ((p.enableBay b).finish nv, .reply .ok [])

def execBayEnable (tag : Byte) (bay : HostField BayName) (s : State) : Result :=
  .next (s.hostCommand tag (txt "BAY_ENABLE") (ownBayEnable bay))

/-- FAULT_CLEAR carried out (R131). -/
def Part.clearFault (p : Part) (b : BayRef) : Part :=
  let p := (p.modBay b fun y => { y with fault := none }).raise (.bay b) .faultCleared
  let y := p.bay b
  let p := if (p.rack b.rack).state = .online ∧ y.enable = true ∧ y.occupant.isSome = true then p.sessionStart b
    else p
  p.readyEval b

/-- FAULT_CLEAR (R131). -/
def ownFaultClear (bay : HostField BayName) : Owner := fun nv p =>
  match bayField bay with
  | none => refuse p .badArg
  | some b =>
    if !p.present b then refuse p .noSuch
    else if (p.bay b).fault.isNone then refuse p .state
    else
      let q := (p.clearFault b).finish nv
      (q, .reply .ok [fld "session" (sessionText (q.bay b).session)])

def execFaultClear (tag : Byte) (bay : HostField BayName) (s : State) : Result :=
  .next (s.hostCommand tag (txt "FAULT_CLEAR") (ownFaultClear bay))

/-- FAULT_READ (R132). -/
def ownFaultRead (bay : HostField BayName) : Owner := fun _ p =>
  match bayField bay with
  | none => refuse p .badArg
  | some b => if !p.present b then refuse p .noSuch else (p, .reply .ok (p.faultFields b))

def execFaultRead (tag : Byte) (bay : HostField BayName) (s : State) : Result :=
  .next (s.hostCommand tag (txt "FAULT_READ") (ownFaultRead bay))

/-! ### The rack bus -/

/-- A rack's poll timer elapses and sets poll due (R98, R100). -/
def Part.pollElapse (p : Part) (r : RackNo) : Part :=
  match (p.rack r).pollTimer with
  | none => p
  | some d =>
    let p := p.reach d
    p.modRack r fun k =>
      { k with pollTimer := some (d + Config.pollPeriod)
               pollDue := match k.pollDue with | some t => some t | none => some p.now }

/-- POLL_TIMER_ELAPSE (R100). -/
def execPollTimerElapse (r : RackNo) (s : State) : Result :=
  .next (s.partEvent fun nv p => (p.pollElapse r).finish nv)

/-- The turn in progress ends unanswered after 8 ms (R99 to R101). -/
def Part.turnTimeout (p : Part) : Part :=
  match p.bus.turn with
  | none => p
  | some (.poll r m, t) => (p.reach (t + 8)).pollMissed r m
  | some (.dock c _ serial _ _, t) => ((p.reach (t + 8)).endTurn).requestGone c serial

/-- BUS_TURN_TIMEOUT (R101). -/
def execBusTurnTimeout (s : State) : Result := .next (s.partEvent fun nv p => p.turnTimeout.finish nv)

/-- RACK_HELLO, as the answer of the rack's poll turn (R102, R105; log 12). -/
def execRackHello (r : RackNo) (count revision : Nat) (s : State) : Result :=
  .next (s.partEvent fun nv p =>
    match p.pollTurnOf r with
    | some m => ((p.pollAnswered r m).rackHello r count revision).finish nv
    | none => p)

/-- SETUP_DONE moves the attach step to SURVEY (R102). -/
def Part.setupDone (p : Part) (r : RackNo) (m : PollMessage) : Part :=
  match (p.rack r).state, (p.rack r).step, m with
  | .attaching, some .setup, .rackSetup _ => p.modRack r fun k => { k with step := some .survey }
  | _, _, _ => p

def execSetupDone (r : RackNo) (s : State) : Result :=
  .next (s.partEvent fun nv p =>
    match p.pollTurnOf r with
    | some m => ((p.pollAnswered r m).setupDone r m).finish nv
    | none => p)

/-- A SURVEY_ANSWER listing the offered count of bays completes the attach (R102, R104). -/
def Part.surveyAnswer (nv : Nv) (p : Part) (r : RackNo) (m : PollMessage)
    (seen : List (Option (UnitId × UnitClass))) : Part :=
  match (p.rack r).state, (p.rack r).step, m, (p.rack r).offered with
  | .attaching, some .survey, .survey, some n => if seen.length = n then p.attach nv r n seen else p
  | _, _, _, _ => p

def execSurveyAnswer (r : RackNo) (seen : List (Option (UnitId × UnitClass))) (s : State) : Result :=
  .next (s.partEvent fun nv p =>
    match p.pollTurnOf r with
    | some m => ((p.pollAnswered r m).surveyAnswer nv r m seen).finish nv
    | none => p)

/-- One event of a POLL_ANSWER, whole: its effects, what is served at its end (log 10), and the arbiter, so
that a report it raises is begun at once on a free line (R99, R196). -/
def State.pollEvent (s : State) (r : RackNo) (e : PollEvent) : State :=
  ({ s with part := (s.part.pollEvent s.nv r e).settleEvent s.nv } : State).arbitrate

/-- A POLL_ANSWER's events in order, each as its own event, taken from an ONLINE rack that was sent a POLL
(R99, R101, R102). -/
def State.takeEvents (s : State) (r : RackNo) (m : PollMessage) (es : List PollEvent) : State :=
  match (s.part.rack r).state, m with
  | .online, .poll _ _ _ => es.foldl (fun t e => t.pollEvent r e) s
  | _, _ => s

/-- A POLL_ANSWER ends its poll turn, its events are taken, and the free bus is given (R100, R101). -/
def State.pollAnswer (r : RackNo) (es : List PollEvent) (s : State) : State :=
  match s.part.pollTurnOf r with
  | some m =>
    let t := ({ s with part := s.part.pollAnswered r m } : State).takeEvents r m es
    { t with part := t.part.finish t.nv }
  | none => s

/-- POLL_ANSWER (R99 to R102; log 12). -/
def execPollAnswer (r : RackNo) (es : List PollEvent) (s : State) : Result :=
  .next (s.event (State.pollAnswer r es))

/-- A DOCK_ACCEPT ends the dock turn of its rack, and the engine is told that the request has gone out;
in a poll turn it is an answer of another kind (R100, R101). -/
def Part.dockAccept (p : Part) (r : RackNo) : Part :=
  match p.bus.turn with
  | some (.dock c b serial _ _, _) => if b.rack = r then p.endTurn.requestGone c serial else p
  | some (.poll k m, _) => if k = r then p.pollAnswered r m else p
  | none => p

def execDockAccept (r : RackNo) (s : State) : Result :=
  .next (s.partEvent fun nv p => (p.dockAccept r).finish nv)

/-! ### Timers -/

/-- RAMP_TIMER_ELAPSE (R146). -/
def execRampTimerElapse (r : RackNo) (s : State) : Result :=
  .next (s.partEvent fun nv p => (p.rampElapse r).finish nv)

/-- HOLD_TIMER_ELAPSE (R147). -/
def execHoldTimerElapse (r : RackNo) (s : State) : Result :=
  .next (s.partEvent fun nv p => (p.holdElapse r).finish nv)

/-- The charge watch of a bay runs out: SLOW occurs while the session is CHARGING (R124). -/
def Part.watchExpiry (p : Part) (b : BayRef) : Part :=
  match (p.bay b).watch with
  | none => p
  | some d =>
    let p := (p.reach d).modBay b fun y => { y with watch := none }
    if (p.bay b).session = .charging then p.faultOccur .slow b else p

/-- CHARGE_WATCH_EXPIRY (R124). -/
def execChargeWatchExpiry (b : BayRef) (s : State) : Result :=
  .next (s.partEvent fun nv p => (p.watchExpiry b).finish nv)

end Sys2Proof.Machine
end

