-- ==== Sys2Proof/Machine/JobRows.lean ====
section
/-! DEFINITION. The provisioning and image commands and the engine's no-answer limit (R158, R169 to
R175). -/

namespace Sys2Proof.Machine

/-! ### Channels (R169, R172) -/

/-- CHANNEL_CLEAR (R169): the LOCKED channel resumes its parked job or becomes IDLE and is served. -/
def ownChannelClear (channel : HostField Nat) : Owner := fun nv p =>
  match channelField channel with
  | none => refuse p .badArg
  | some c =>
    if (p.channel c).state ≠ .locked then refuse p .state
    else
      let q := (p.modChannel c fun h => { h with state := .running }).finish nv
      (q, .reply .ok [fld "state" (channelStateText (q.channel c).state)])

def execChannelClear (tag : Byte) (channel : HostField Nat) (s : State) : Result :=
  .next (s.hostCommand tag (txt "CHANNEL_CLEAR") (ownChannelClear channel))

/-- The jobs that stand on a channel, the parked job before the active job (R168). -/
def Channel.jobs (h : Channel) : List Job := h.parked.toList ++ h.active.toList

/-- CHANNEL_STOP carried out (R169): the channel's jobs end, it becomes IDLE and is served. -/
def Part.stopChannel (p : Part) (c : ChannelNo) : Part :=
  let js := (p.channel c).jobs
  let q := (p.abortJobs js .stopped).modChannel c fun h => { h with state := .idle, tx := none }
  if js.isEmpty then q else q.raise (.channel c) .stopped

/-- CHANNEL_STOP (R169). The field stopped lists the jobs in the order of their ends, the parked job's number
before the active job's (R168): the model's choice (log 33). -/
def ownChannelStop (channel : HostField Nat) : Owner := fun nv p =>
  match channelField channel with
  | none => refuse p .badArg
  | some c =>
    ((p.stopChannel c).finish nv,
     .reply .ok [fld "stopped" (commasOrDash ((p.channel c).jobs.map fun j => numText j.number))])

def execChannelStop (tag : Byte) (channel : HostField Nat) (s : State) : Result :=
  .next (s.hostCommand tag (txt "CHANNEL_STOP") (ownChannelStop channel))

/-- CHANNEL_READ (R172). -/
def ownChannelRead (channel : HostField Nat) : Owner := fun _ p =>
  match channelField channel with
  | none => refuse p .badArg
  | some c => (p, .reply .ok (p.channelFields c))

def execChannelRead (tag : Byte) (channel : HostField Nat) (s : State) : Result :=
  .next (s.hostCommand tag (txt "CHANNEL_READ") (ownChannelRead channel))

/-! ### Jobs (R170, R171) -/

/-- The work a JOB_MAINT's fields name; `none` when one is malformed, out of range, missing, or given
where it is absent (R170, check 1). -/
def maintWork (op : HostField MaintOp) (area : HostField Area) (addr count : HostField Nat)
    (data : HostField (List Byte)) : Option JobWork :=
  match fieldVal op, fieldVal area, rangeField 0 0xFFFFFF addr with
  | some .read, some a, some x =>
    match rangeField 1 16 count with
    | some n => if fieldAbsent data then some (.maintRead a x n) else none
    | none => none
  | some .erase, some a, some x =>
    match rangeField 1 16 count with
    | some n => if fieldAbsent data then some (.maintErase a x n) else none
    | none => none
  | some .write, some a, some x =>
    match fieldVal data with
    | some d => if d.length = Config.pageBytes ∧ fieldAbsent count = true then some (.maintWrite a x d) else none
    | none => none
  | _, _, _ => none

/-- The checks JOB_MAINT and JOB_REFRESH share: the bay, and its listed occupant in an OCCUPIED bay
(R170, checks 2 and 3). -/
def Part.jobBay (p : Part) (b : BayRef) : UnitId ⊕ ResultWord :=
  if !p.present b then .inr .noSuch
  else if p.bayState b ≠ .occupied then .inr .state
  else match p.listedIn b with
    | some u => .inl u
    | none => .inr .state

/-- The last checks they share: INUSE, LOCKED, FULL (R170, checks 4 to 6). -/
def Part.jobRoom (p : Part) (b : BayRef) : Option ResultWord :=
  if (p.bay b).job.isSome then some .inUse
  else if p.allLocked then some .locked
  else if Config.queueSize ≤ p.queue.length then some .full
  else none

/-- JOB_MAINT (R170). -/
def ownJobMaint (bay : HostField BayName) (op : HostField MaintOp) (area : HostField Area) (addr count : HostField Nat)
    (data : HostField (List Byte)) : Owner := fun nv p =>
  match bayField bay, maintWork op area addr count data with
  | some b, some w =>
    match p.jobBay b with
    | .inr r => refuse p r
    | .inl u =>
      match p.jobRoom b with
      | some r => refuse p r
      | none => ((p.joinQueue b u w).finish nv, .reply .ok [fld "job" (numText p.nextNumber)])
  | _, _ => refuse p .badArg

def execJobMaint (tag : Byte) (bay : HostField BayName) (op : HostField MaintOp) (area : HostField Area)
    (addr count : HostField Nat) (data : HostField (List Byte)) (s : State) : Result :=
  .next (s.hostCommand tag (txt "JOB_MAINT") (ownJobMaint bay op area addr count data))

/-- JOB_REFRESH (R170). -/
def ownJobRefresh (bay : HostField BayName) : Owner := fun nv p =>
  match bayField bay with
  | none => refuse p .badArg
  | some b =>
    match p.jobBay b with
    | .inr r => refuse p r
    | .inl u =>
      match p.entry u with
      | none => refuse p .state
      | some e =>
        if (p.bay b).fault.isSome || e.retired then refuse p .state
        else if !(p.slot e.cls).isSealed then refuse p .state
        else match p.jobRoom b with
          | some r => refuse p r
          | none =>
            let q := p.modBay b fun y => { y with refreshHold := false, needRefresh := false }
            ((q.joinQueue b u (.refresh e.cls)).finish nv, .reply .ok [fld "job" (numText p.nextNumber)])

def execJobRefresh (tag : Byte) (bay : HostField BayName) (s : State) : Result :=
  .next (s.hostCommand tag (txt "JOB_REFRESH") (ownJobRefresh bay))

/-- JOB_CANCEL (R171). -/
def ownJobCancel (job : HostField Nat) : Owner := fun nv p =>
  match rangeField 1 255 job with
  | none => refuse p .badArg
  | some n =>
    match p.jobNumbered n with
    | none => refuse p .noSuch
    | some j =>
      if !(p.queue.any (·.number == n)) then refuse p .state
      else ((p.endJob j (.aborted .cancelled)).finish nv, .reply .ok [])

def execJobCancel (tag : Byte) (job : HostField Nat) (s : State) : Result :=
  .next (s.hostCommand tag (txt "JOB_CANCEL") (ownJobCancel job))

/-- JOB_READ (R171). -/
def ownJobRead (job : HostField Nat) : Owner := fun _ p =>
  match rangeField 1 255 job with
  | none => refuse p .badArg
  | some n =>
    match p.jobNumbered n with
    | none => refuse p .noSuch
    | some j => (p, .reply .ok (p.jobFields j))

def execJobRead (tag : Byte) (job : HostField Nat) (s : State) : Result :=
  .next (s.hostCommand tag (txt "JOB_READ") (ownJobRead job))

/-- JOB_QUEUE_READ (R171). -/
def ownJobQueueRead : Owner := fun _ p =>
  (p, .reply .ok [fld "length" (numText p.queue.length), fld "peak" (numText p.peakQueue),
    fld "queue" (commasOrDash (p.queue.map queuedText))])

def execJobQueueRead (tag : Byte) (s : State) : Result :=
  .next (s.hostCommand tag (txt "JOB_QUEUE_READ") ownJobQueueRead)

/-- JOB_STATS_CLEAR (R171). -/
def ownJobStatsClear : Owner := fun _ p => ({ p with peakQueue := p.queue.length }, .reply .ok [])

def execJobStatsClear (tag : Byte) (s : State) : Result :=
  .next (s.hostCommand tag (txt "JOB_STATS_CLEAR") ownJobStatsClear)

/-! ### Image slots (R174, R175) -/

/-- The store engine starts an operation (R200). -/
def Part.startOp (p : Part) (op : StoreOp) : Part := { p with store := { p.store with op := some op } }

/-- IMAGE_BEGIN (R174). -/
def ownImageBegin (slot : HostField UnitClass) (revision pages : HostField Nat) (checksum : HostField (BitVec 32)) :
    Owner := fun _ p =>
  match fieldVal slot, rangeField 1 65535 revision, rangeField 1 800 pages, fieldVal checksum with
  | some s, some r, some n, some c =>
    if p.refreshNames s then refuse p .inUse
    else if p.store.op.isSome then refuse p .storeBusy
    else (((p.setSlot s (.loading r n c [])).startOp (.regionErase (.imageBegin s))).raise (.image s) .slotState,
      .waits)
  | _, _, _, _ => refuse p .badArg

def execImageBegin (tag : Byte) (slot : HostField UnitClass) (revision pages : HostField Nat)
    (checksum : HostField (BitVec 32)) (s : State) : Result :=
  .next (s.hostCommand tag (txt "IMAGE_BEGIN") (ownImageBegin slot revision pages checksum))

/-- Adding a page to a written map, ascending (R173). -/
def addPage (n : Nat) : List Nat → List Nat
  | [] => [n]
  | m :: ms => if n < m then n :: m :: ms else m :: addPage n ms

/-- Page data: 256 bytes, written as 512 hexadecimal characters (R174). -/
def pageField (data : HostField (List Byte)) : Option (List Byte) :=
  match fieldVal data with
  | some d => if d.length = Config.pageBytes then some d else none
  | none => none

/-- IMAGE_PAGE (R174). -/
def ownImagePage (slot : HostField UnitClass) (page : HostField Nat) (data : HostField (List Byte)) : Owner := fun _ p =>
  match fieldVal slot, fieldVal page, pageField data with
  | some s, some n, some d =>
    match p.slot s with
    | .loading r k c w =>
      if k ≤ n then refuse p .badArg
      else if w.contains n then refuse p .state
      else if p.store.op.isSome then refuse p .storeBusy
      else ((p.setSlot s (.loading r k c (addPage n w))).startOp (.pageWrite s n d), .waits)
    | _ => refuse p .state
  | _, _, _ => refuse p .badArg

def execImagePage (tag : Byte) (slot : HostField UnitClass) (page : HostField Nat) (data : HostField (List Byte))
    (s : State) : Result :=
  .next (s.hostCommand tag (txt "IMAGE_PAGE") (ownImagePage slot page data))

/-- IMAGE_SEAL (R175). When the slot becomes SEALED the waiting work of the bays is tried (log 28). -/
def ownImageSeal (slot : HostField UnitClass) : Owner := fun nv p =>
  match fieldVal slot with
  | none => refuse p .badArg
  | some s =>
    match p.slot s with
    | .loading r n c _ =>
      if p.store.op.isSome then refuse p .storeBusy
      else
        let x := nv.imageCheck s n
        let h : ImageHeader := if x.1 = c then .sealed r n c else .empty
        let mismatch := if x.1 = c then none else some x.1
        (((((p.noteCorrection x.2).setSlot s h).startOp (.headerWrite s h mismatch)).raise (.image s)
          .slotState).finish nv, .waits)
    | _ => refuse p .state

def execImageSeal (tag : Byte) (slot : HostField UnitClass) (s : State) : Result :=
  .next (s.hostCommand tag (txt "IMAGE_SEAL") (ownImageSeal slot))

/-- IMAGE_READ (R175). -/
def ownImageRead (slot : HostField UnitClass) : Owner := fun _ p =>
  match fieldVal slot with
  | none => refuse p .badArg
  | some s => (p, .reply .ok (p.imageFields s))

def execImageRead (tag : Byte) (slot : HostField UnitClass) (s : State) : Result :=
  .next (s.hostCommand tag (txt "IMAGE_READ") (ownImageRead slot))

/-! ### The no-answer limit (R158) -/

/-- The running no-answer limit of a channel's transaction passes (R158). -/
def Part.noAnswer (p : Part) (c : ChannelNo) : Part :=
  match (p.channel c).active, (p.channel c).tx with
  | some j, some t =>
    match t.status with
    | .out d => (p.reach d).limitPassed c t j
    | _ => p
  | _, _ => p

/-- DOCK_NO_ANSWER_LIMIT (R158). -/
def execDockNoAnswerLimit (c : ChannelNo) (s : State) : Result :=
  .next (s.partEvent fun nv p => (p.noAnswer c).finish nv)

end Sys2Proof.Machine
end

