-- ==== Sys2Proof/Machine/IssueRows.lean ====
section
/-! DEFINITION. The issue commands and the issue timers (R179, R180, R183, R184, R187, R189). -/

namespace Sys2Proof.Machine

/-- The two forms of ISSUE (R179). -/
inductive IssueForm where
  | byRack (r : RackNo) (cls : UnitClass) (tune : Option Tune)
  | byUnit (u : UnitId) (tune : Option Tune)
deriving DecidableEq, Repr

/-- The tune ISSUE's fields give: none when both are absent; the outer `none` when one alone is given or
either is malformed or out of range (R179, check 1). -/
def issueTune (tour language : HostField Nat) : Option (Option Tune) :=
  if fieldAbsent tour && fieldAbsent language then some none
  else match tourField tour, langField language with
    | some t, some l => some (some ⟨t, l⟩)
    | _, _ => none

/-- The form ISSUE's fields give, or `none` for BADARG (R179, check 1). -/
def issueForm (rack : HostField Nat) (cls : HostField UnitClass) (unit : HostField UnitId) (tour language : HostField Nat) :
    Option IssueForm :=
  match issueTune tour language with
  | none => none
  | some tune =>
    if fieldAbsent unit then
      match rackField rack, fieldVal cls with
      | some r, some .listener => if tune.isSome then some (.byRack r .listener tune) else none
      | some r, some .voice => if tune.isNone then some (.byRack r .voice tune) else none
      | _, _ => none
    else if fieldAbsent rack && fieldAbsent cls then (unitField unit).map fun u => .byUnit u tune
    else none

/-- The lowest-numbered FREE record (R180). -/
def Part.freeRecord (p : Part) : Option IssueNo := allIssues.find? fun n => (p.issue n).state == .free

/-- The bay in whose ready queue a unit stands (R179, check 3). -/
def Part.readyBay (p : Part) (u : UnitId) : Option BayRef :=
  allBays.find? fun b => (p.rack b.rack).ready.contains b.no && p.listedIn b == some u

/-- The unit of a class nearest the head of a rack's ready queue (R179). -/
def Part.readyOf (p : Part) (r : RackNo) (cls : UnitClass) : Option BayRef :=
  ((p.rack r).ready.map fun b => (⟨r, b⟩ : BayRef)).find? fun b =>
    (p.occupantEntry b).map (·.cls) == some cls

/-- The claim check of a LISTENER's ISSUE, its unit, and the queue's room (R179, checks 4 to 6). -/
def Part.issueRoom (p : Part) (tune : Option Tune) (bay : Option BayRef) : BayRef ⊕ ResultWord :=
  match tune.bind fun t => p.claimCheck t.tour t.lang with
  | some r => .inr r
  | none =>
    match bay with
    | none => .inr .noSuch
    | some b => if tune.isSome && decide (Config.queueSize ≤ p.queue.length) then .inr .full else .inl b

/-- The bay whose unit an ISSUE takes, or its refusal (R179, checks 3 to 6). -/
def Part.issueChoice (p : Part) : IssueForm → (BayRef × Option Tune) ⊕ ResultWord
  | .byUnit u tune =>
    match p.entry u with
    | none => .inr .noSuch
    | some e =>
      if (e.cls == .listener) != tune.isSome then .inr .badArg
      else match p.readyBay u with
        | none => .inr .state
        | some b => match p.issueRoom tune (some b) with
          | .inl b => .inl (b, tune)
          | .inr r => .inr r
  | .byRack r cls tune =>
    match p.issueRoom tune (p.readyOf r cls) with
    | .inl b => .inl (b, tune)
    | .inr r => .inr r

/-- ISSUE carried out for a unit in a bay (R180); the number of the TUNE queued, if one is. -/
def Part.issueUnit (p : Part) (n : IssueNo) (b : BayRef) (e : Entry) (tune : Option Tune) :
    Part × Option Nat :=
  let record (st : IssueState) : Issue :=
    { Issue.free with
      state := st, cls := some e.cls, unit := some e.unit, bay := some b, tune := tune, issuedAt := some p.now }
  match tune with
  | some t =>
    let q := p.setIssue n { record .tuning with limit := some (p.now + 1000 * p.profile.issueLimit) }
    let q := (q.takeClaim t.tour).readyEval b
    let k := q.nextNumber
    let q := (q.modIssue n fun x => { x with job := some (k, none) }).joinQueue b e.unit (.tune (some t))
    (q.raise (.issue n) .issued, some k)
  | none =>
    let q := (((p.setIssue n (record .picking)).raise (.issue n) .issued).enterPicking n).readyEval b
    (q, none)

/-- ISSUE (R179, R180). -/
def ownIssue (rack : HostField Nat) (cls : HostField UnitClass) (unit : HostField UnitId) (tour language : HostField Nat) :
    Owner := fun nv p =>
  match issueForm rack cls unit tour language with
  | none => refuse p .badArg
  | some f =>
    match p.freeRecord with
    | none => refuse p .full
    | some n =>
      match p.issueChoice f with
      | .inr r => refuse p r
      | .inl (b, tune) =>
        match p.occupantEntry b with
        | none => refuse p .state
        | some e =>
          let x := p.issueUnit n b e tune
          (x.1.finish nv, .reply .ok
            [fld "issue" (numText (n.val + 1)), fld "unit" (hex8 e.unit), fld "bay" (bayText b),
             fld "job" (orDash numText x.2)])

def execIssue (tag : Byte) (rack : HostField Nat) (cls : HostField UnitClass) (unit : HostField UnitId)
    (tour language : HostField Nat) (s : State) : Result :=
  .next (s.hostCommand tag (txt "ISSUE") (ownIssue rack cls unit tour language))

/-- ISSUE_CANCEL (R187). -/
def ownIssueCancel (issue : HostField Nat) : Owner := fun nv p =>
  match issueField issue with
  | none => refuse p .badArg
  | some n =>
    let x := p.issue n
    if !x.state.inProgress then refuse p .state
    else ((p.settle n .cancelled).finish nv, .reply .ok [fld "untune" (bit x.tuned)])

def execIssueCancel (tag : Byte) (issue : HostField Nat) (s : State) : Result :=
  .next (s.hostCommand tag (txt "ISSUE_CANCEL") (ownIssueCancel issue))

/-- ISSUE_READ (R189). -/
def ownIssueRead (issue : HostField Nat) : Owner := fun _ p =>
  match issueField issue with
  | none => refuse p .badArg
  | some n => (p, .reply .ok (p.issueFields n))

def execIssueRead (tag : Byte) (issue : HostField Nat) (s : State) : Result :=
  .next (s.hostCommand tag (txt "ISSUE_READ") (ownIssueRead issue))

/-- The limit timer of a TUNING record runs out (R183). -/
def Part.limitExpiry (p : Part) (n : IssueNo) : Part :=
  match (p.issue n).state, (p.issue n).limit with
  | .tuning, some d => (p.reach d).settle n (.failed .timeout)
  | _, _ => p

/-- LIMIT_TIMER_EXPIRY (R183). -/
def execLimitTimerExpiry (n : IssueNo) (s : State) : Result :=
  .next (s.partEvent fun nv p => (p.limitExpiry n).finish nv)

/-- The pick timer of a PICKING record runs out (R184). -/
def Part.pickExpiry (p : Part) (n : IssueNo) : Part :=
  match (p.issue n).state, (p.issue n).pick with
  | .picking, some d => (p.reach d).settle n .expired
  | _, _ => p

/-- PICK_TIMER_EXPIRY (R184). -/
def execPickTimerExpiry (n : IssueNo) (s : State) : Result :=
  .next (s.partEvent fun nv p => (p.pickExpiry n).finish nv)

end Sys2Proof.Machine
end

