-- ==== Sys2Proof/Machine/SettingsRows.lean ====
section
/-! DEFINITION. The settings commands, the ends of store operations, resets and the start-up load
(R199 to R206). -/

namespace Sys2Proof.Machine

/-! ### Commands -/

/-- The kinds REPORT_ENABLE turns on and off; `none` for BADARG. ALL in one field names every kind but
those of the other (R199). -/
def enableKinds (on off : HostField KindList) : Option (List EventKind × List EventKind) :=
  match kindsField on, kindsField off with
  | some a, some b =>
    match isAllKinds on, isAllKinds off with
    | true, true => none
    | true, false => some (a, b)
    | false, true => some (a, b.filter fun k => !a.contains k)
    | false, false => if a.any b.contains then none else some (a, b)
  | _, _ => none

/-- REPORT_ENABLE (R199). -/
def ownReportEnable (on off : HostField KindList) : Owner := fun _ p =>
  match enableKinds on off with
  | none => refuse p .badArg
  | some (a, b) =>
    let q := p.reportEnable a b
    (q, .reply .ok [fld "off" (commasOrDash (q.profile.disabledKinds.map kindText))])

def execReportEnable (tag : Byte) (on off : HostField KindList) (s : State) : Result :=
  .next (s.hostCommand tag (txt "REPORT_ENABLE") (ownReportEnable on off))

/-- Whether the thresholds stand in strictly ascending order (R140). -/
def Profile.ascending (f : Profile) : Bool := f.t1 < f.t2 && f.t2 < f.t3 && f.t3 < f.t4

/-- The profile as it would stand after a SET (R140, R202). -/
def Profile.writeAll (f : Profile) (fs : List (Param × SetValue)) : Profile :=
  fs.foldl (fun g x => g.write x.1 x.2) f

/-- Whether a field would turn off a language in use (R18). -/
def Part.turnsOffUsed (p : Part) (f : Param × SetValue) : Bool :=
  match f with
  | (.langEnable l, .onOff false) => p.langEnabled l && p.langInUse l
  | _ => false

/-- SET (R202). -/
def ownSet (fields : List (Param × SetValue)) : Owner := fun nv p =>
  if fields.isEmpty || fields.any (fun f => !setValueOk f.1 f.2) then refuse p .badArg
  else if !(p.profile.writeAll fields).ascending then refuse p .badArg
  else if fields.any p.turnsOffUsed then refuse p .inUse
  else ((p.setParams fields).finish nv, .reply .ok [])

def execSet (tag : Byte) (fields : List (Param × SetValue)) (s : State) : Result :=
  .next (s.hostCommand tag (txt "SET") (ownSet fields))

/-- The parameters GET names, in the order of the table; `none` when a name is not a parameter (R202). -/
def getParams : HostField ParamList → Option (List Param)
  | .val .all => some allParams
  | .val (.list l) =>
    if l.any (·.isNone) then none else some (allParams.filter fun q => l.contains (some q))
  | _ => none

/-- GET (R202). -/
def ownGet (names : HostField ParamList) : Owner := fun _ p =>
  match getParams names with
  | none => refuse p .badArg
  | some qs => (p, .reply .ok (qs.map fun q => (paramText q, setValueText (p.profile.value q))))

def execGet (tag : Byte) (names : HostField ParamList) (s : State) : Result :=
  .next (s.hostCommand tag (txt "GET") (ownGet names))

/-- PROFILE_SAVE (R203). -/
def ownProfileSave : Owner := fun _ p =>
  if p.store.op.isSome then refuse p .storeBusy else (p.startOp (.profileSave p.profile), .waits)

def execProfileSave (tag : Byte) (s : State) : Result :=
  .next (s.hostCommand tag (txt "PROFILE_SAVE") ownProfileSave)

/-- Both headers EMPTY, each slot raising SLOT_STATE; the working retire list emptied, retire-dirty clear
(R203). -/
def Part.formatRecords (p : Part) : Part :=
  let q : Part :=
    { p with listenerSlot := .empty, voiceSlot := .empty, retireList := []
             store := { p.store with retireDirty := false } }
  (q.raise (.image .listener) .slotState).raise (.image .voice) .slotState

/-- STORE_FORMAT carried out (R203); for the order of its aborts see `Part.abortJobs` (log 39). -/
def Part.format (p : Part) : Part :=
  let p := p.abortJobs (p.queue.filter (·.work.kind == .refresh)) .format
  (p.formatRecords.setDefaults).startOp (.regionErase .format)

/-- STORE_FORMAT (R203). -/
def ownStoreFormat : Owner := fun nv p =>
  if p.anyJobOnChannel then refuse p .inUse
  else if p.store.op.isSome then refuse p .storeBusy
  else (p.format.finish nv, .waits)

def execStoreFormat (tag : Byte) (s : State) : Result :=
  .next (s.hostCommand tag (txt "STORE_FORMAT") ownStoreFormat)

/-- RESTART (R204). -/
def ownRestart : Owner := fun _ p => if p.store.op.isSome then refuse p .storeBusy else (p, .restart)

def execRestart (tag : Byte) (s : State) : Result :=
  .next (s.hostCommand tag (txt "RESTART") ownRestart)

/-- STATUS (R205). -/
def ownStatus : Owner := fun _ p => (p, .reply .ok p.statusFields)

def execStatus (tag : Byte) (s : State) : Result :=
  .next (s.hostCommand tag (txt "STATUS") ownStatus)

/-! ### Ends of store operations (R200) -/

/-- The end of a profile save, and its reply (R203). -/
def State.profileSaved (s : State) : State :=
  match s.part.store.op with
  | some (.profileSave f) =>
    (s.endOp (.profileSave f)).reply .ok [fld "saved" (numText f.savedCount)]
  | _ => s

def execProfileSaveDone (s : State) : Result := .next (s.event State.profileSaved)

/-- The end of a retire list save (R200). -/
def State.retireSaved (s : State) : State :=
  match s.part.store.op with
  | some (.retireSave l) => s.endOp (.retireSave l)
  | _ => s

def execRetireListSaveDone (s : State) : Result := .next (s.event State.retireSaved)

/-- The end of a region erase and of the writes that follow it, and its reply (R174, R200, R203). -/
def State.regionErased (s : State) : State :=
  match s.part.store.op with
  | some (.regionErase x) => (s.endOp (.regionErase x)).reply .ok []
  | _ => s

def execRegionEraseDone (s : State) : Result := .next (s.event State.regionErased)

/-- The end of an image page write, and its reply (R174). -/
def State.pageWritten (s : State) : State :=
  match s.part.store.op with
  | some (.pageWrite x n d) => (s.endOp (.pageWrite x n d)).reply .ok []
  | _ => s

def execImagePageWriteDone (s : State) : Result := .next (s.event State.pageWritten)

/-- The end of a header write, and its reply; the waiting work of the bays is served (R175; log 28). -/
def State.headerWritten (s : State) : State :=
  match s.part.store.op with
  | some (.headerWrite x h mismatch) =>
    let t := s.endOp (.headerWrite x h mismatch)
    let t := { t with part := t.part.finish t.nv }
    match mismatch with
    | none => t.reply .ok []
    | some v => t.reply .badArg [fld "computed" (hex8 v)]
  | _ => s

def execHeaderWriteDone (s : State) : Result := .next (s.event State.headerWritten)

/-! ### Resets, the load, the ends of sendings -/

/-- POWER_ON: a full reset caused by power-on (R204). -/
def execPowerOn (straps : Straps) (s : State) : Result := .next (s.fullReset .powerOn straps)

/-- RESET_LINE: a full reset caused by the reset line (R204). -/
def execResetLine (straps : Straps) (s : State) : Result := .next (s.fullReset .resetLine straps)

/-- START_UP_LOAD_DONE: the load in progress ends (R204). -/
def execStartUpLoadDone (s : State) : Result :=
  .next (if s.deaf then ({ s with part := s.part.load s.nv } : State).arbitrate else s)

/-- REPLY_SENT (R195). A reply to RESTART is followed by its full reset (R204). -/
def execReplySent (s : State) : Result := .next (s.event State.replySent)

/-- BUSY_REPLY_SENT (R196). -/
def execBusyReplySent (s : State) : Result := .next (s.event State.busyReplySent)

/-- REPORT_SENT (R198). -/
def execReportSent (s : State) : Result := .next (s.event State.reportSent)

end Sys2Proof.Machine
end

