-- ==== Sys2Proof/Machine/LinkRows.lean ====
section
/-! DEFINITION. The host line's commands (R191 to R195): COMMAND as the host verb its body spells, bytes
through the receive framer, breaks and character errors. -/

namespace Sys2Proof.Machine

/-- The meaning of a host verb; another command changes nothing. COMMAND and the verbs' own rows share
these meanings (log 4, 5). -/
def hostVerb (i : Instr) (s : State) : Result :=
  match i with
  | .tourOpen tag t l f c => execTourOpen tag t l f c s
  | .tourStart tag t => execTourStart tag t s
  | .tourPause tag t => execTourPause tag t s
  | .tourClose tag t => execTourClose tag t s
  | .tourCapacity tag t c => execTourCapacity tag t c s
  | .tourRead tag t => execTourRead tag t s
  | .tourVoiceAdd tag t l u => execTourVoiceAdd tag t l u s
  | .tourVoiceDrop tag t l => execTourVoiceDrop tag t l s
  | .unitRead tag u => execUnitRead tag u s
  | .unitList tag a n => execUnitList tag a n s
  | .unitForget tag u => execUnitForget tag u s
  | .unitUnassign tag u => execUnitUnassign tag u s
  | .unitRetune tag u t l => execUnitRetune tag u t l s
  | .unitLocate tag u => execUnitLocate tag u s
  | .unitRetire tag u => execUnitRetire tag u s
  | .retirePurge tag u => execRetirePurge tag u s
  | .retireList tag a n => execRetireList tag a n s
  | .zoneRead tag z => execZoneRead tag z s
  | .zoneSlots tag z => execZoneSlots tag z s
  | .zoneStatsClear tag z => execZoneStatsClear tag z s
  | .houseStart tag z l => execHouseStart tag z l s
  | .houseZones tag z => execHouseZones tag z s
  | .houseStop tag => execHouseStop tag s
  | .houseRead tag => execHouseRead tag s
  | .rackRead tag r => execRackRead tag r s
  | .bayRead tag b => execBayRead tag b s
  | .bayDisable tag b => execBayDisable tag b s
  | .bayEnable tag b => execBayEnable tag b s
  | .faultClear tag b => execFaultClear tag b s
  | .faultRead tag b => execFaultRead tag b s
  | .channelClear tag c => execChannelClear tag c s
  | .channelStop tag c => execChannelStop tag c s
  | .channelRead tag c => execChannelRead tag c s
  | .jobMaint tag b o a x n d => execJobMaint tag b o a x n d s
  | .jobRefresh tag b => execJobRefresh tag b s
  | .jobCancel tag j => execJobCancel tag j s
  | .jobRead tag j => execJobRead tag j s
  | .jobQueueRead tag => execJobQueueRead tag s
  | .jobStatsClear tag => execJobStatsClear tag s
  | .imageBegin tag x r n c => execImageBegin tag x r n c s
  | .imagePage tag x n d => execImagePage tag x n d s
  | .imageSeal tag x => execImageSeal tag x s
  | .imageRead tag x => execImageRead tag x s
  | .issue tag r c u t l => execIssue tag r c u t l s
  | .issueCancel tag n => execIssueCancel tag n s
  | .issueRead tag n => execIssueRead tag n s
  | .reportEnable tag a b => execReportEnable tag a b s
  | .set tag f => execSet tag f s
  | .get tag n => execGet tag n s
  | .profileSave tag => execProfileSave tag s
  | .storeFormat tag => execStoreFormat tag s
  | .restart tag => execRestart tag s
  | .status tag => execStatus tag s
  | _ => .next s

/-- A COMMAND whose record fails the syntax check is answered BADARG by the link port (R194). -/
def ownMalformed : Owner := fun _ p => refuse p .badArg

/-- COMMAND: a COMMAND frame with its tag and body (R193 to R195). The record is checked and the verb it
spells is carried out at once (log 5); a malformed record is answered BADARG with its first word. -/
def execCommand (tag : Byte) (body : List Byte) (s : State) : Result :=
  match parseCommand tag body with
  | some i => hostVerb i s
  | none => .next (s.hostCommand tag (echoVerb body) ownMalformed)

/-- BREAK: a partial frame is discarded and the framer is HUNTING (R191). -/
def execLineBreak (s : State) : Result :=
  .next (s.event fun s => { s with link := { s.link with framer := .hunting } })

/-- CHARACTER_ERROR: a partial frame is discarded and the framer is HUNTING (R191). -/
def execCharacterError (s : State) : Result :=
  .next (s.event fun s => { s with link := { s.link with framer := .hunting } })

/-- The state of a step's answer; every meaning's answer is a next state. -/
def Result.state (s : State) : Result → State
  | .next t => t
  | _ => s

/-- A byte taken while HUNTING (R191). -/
def huntByte (b : Byte) : Framer := if b = 0xD5#8 then .inFrame [] else .hunting

/-- A length outside 2 to 1,026: the framer looks for D5 starting with the first length byte (R193, case
1). -/
def huntPair (hi lo : Byte) : Framer := if hi = 0xD5#8 then .inFrame [lo] else huntByte lo

/-- The length two length bytes give (R192). -/
def lengthOf (hi lo : Byte) : Nat := 256 * hi.toNat + lo.toNat

/-- A whole frame, judged from its bytes after the start byte, with its length (R193, cases 2 to 7). -/
def State.judgeFrame (s : State) (bytes : List Byte) (length : Nat) : State :=
  let s := { s with link := { s.link with framer := .hunting } }
  if bytes.drop (length + 2) = bytes16 (crc (bytes.take (length + 2))) then
    match (bytes.take (length + 2)).drop 2 with
    | kind :: tag :: body =>
      if kind = 1 then Result.state s (execCommand tag body s)
      else if kind = 4 then s.audio tag body
      else s
    | _ => s
  else s

/-- One byte through the receive framer (R191, R193). -/
def State.receiveByte (s : State) (b : Byte) : State :=
  match s.link.framer with
  | .hunting => { s with link := { s.link with framer := huntByte b } }
  | .inFrame got =>
    match got ++ [b] with
    | [hi] => { s with link := { s.link with framer := .inFrame [hi] } }
    | [hi, lo] =>
      if 2 ≤ lengthOf hi lo ∧ lengthOf hi lo ≤ maxBody + 2 then
        { s with link := { s.link with framer := .inFrame [hi, lo] } }
      else { s with link := { s.link with framer := huntPair hi lo } }
    | hi :: lo :: rest =>
      if rest.length = lengthOf hi lo + 2 then s.judgeFrame (hi :: lo :: rest) (lengthOf hi lo)
      else { s with link := { s.link with framer := .inFrame (hi :: lo :: rest) } }
    | [] => s

/-- HOST_FRAME_DISCARDED: bytes that are no accepted frame, through the framer one by one (R191, R193;
log 11). -/
def execHostFrameDiscarded (bytes : List Byte) (s : State) : Result :=
  .next (s.event fun s => bytes.foldl State.receiveByte s)

end Sys2Proof.Machine
end

