-- ==== Sys2Proof/Machine/Dispatch.lean ====
section
/-! DEFINITION. One arm per command: its meaning. -/

namespace Sys2Proof.Machine

def exec (i : Instr) (s : State) : Host.Outcome State Fault Refusal :=
  match i with
  | .powerOn straps => Sys2Proof.Machine.execPowerOn straps s
  | .resetLine straps => Sys2Proof.Machine.execResetLine straps s
  | .startUpLoadDone => Sys2Proof.Machine.execStartUpLoadDone s
  | .lineBreak => Sys2Proof.Machine.execLineBreak s
  | .characterError => Sys2Proof.Machine.execCharacterError s
  | .hostFrameDiscarded bytes => Sys2Proof.Machine.execHostFrameDiscarded bytes s
  | .audio track body => Sys2Proof.Machine.execAudio track body s
  | .command tag body => Sys2Proof.Machine.execCommand tag body s
  | .replySent => Sys2Proof.Machine.execReplySent s
  | .busyReplySent => Sys2Proof.Machine.execBusyReplySent s
  | .reportSent => Sys2Proof.Machine.execReportSent s
  | .tourOpen tag tour label floor capacity => Sys2Proof.Machine.execTourOpen tag tour label floor capacity s
  | .tourStart tag tour => Sys2Proof.Machine.execTourStart tag tour s
  | .tourPause tag tour => Sys2Proof.Machine.execTourPause tag tour s
  | .tourClose tag tour => Sys2Proof.Machine.execTourClose tag tour s
  | .tourCapacity tag tour capacity => Sys2Proof.Machine.execTourCapacity tag tour capacity s
  | .tourRead tag tour => Sys2Proof.Machine.execTourRead tag tour s
  | .tourVoiceAdd tag tour language unit => Sys2Proof.Machine.execTourVoiceAdd tag tour language unit s
  | .tourVoiceDrop tag tour language => Sys2Proof.Machine.execTourVoiceDrop tag tour language s
  | .unitRead tag unit => Sys2Proof.Machine.execUnitRead tag unit s
  | .unitList tag start count => Sys2Proof.Machine.execUnitList tag start count s
  | .unitForget tag unit => Sys2Proof.Machine.execUnitForget tag unit s
  | .unitUnassign tag unit => Sys2Proof.Machine.execUnitUnassign tag unit s
  | .unitRetune tag unit tour language => Sys2Proof.Machine.execUnitRetune tag unit tour language s
  | .unitLocate tag unit => Sys2Proof.Machine.execUnitLocate tag unit s
  | .unitRetire tag unit => Sys2Proof.Machine.execUnitRetire tag unit s
  | .retirePurge tag unit => Sys2Proof.Machine.execRetirePurge tag unit s
  | .retireList tag start count => Sys2Proof.Machine.execRetireList tag start count s
  | .zoneRead tag zone => Sys2Proof.Machine.execZoneRead tag zone s
  | .zoneSlots tag zone => Sys2Proof.Machine.execZoneSlots tag zone s
  | .zoneStatsClear tag zone => Sys2Proof.Machine.execZoneStatsClear tag zone s
  | .houseStart tag zones languages => Sys2Proof.Machine.execHouseStart tag zones languages s
  | .houseZones tag zones => Sys2Proof.Machine.execHouseZones tag zones s
  | .houseStop tag => Sys2Proof.Machine.execHouseStop tag s
  | .houseRead tag => Sys2Proof.Machine.execHouseRead tag s
  | .rackRead tag rack => Sys2Proof.Machine.execRackRead tag rack s
  | .bayRead tag bay => Sys2Proof.Machine.execBayRead tag bay s
  | .bayDisable tag bay => Sys2Proof.Machine.execBayDisable tag bay s
  | .bayEnable tag bay => Sys2Proof.Machine.execBayEnable tag bay s
  | .faultClear tag bay => Sys2Proof.Machine.execFaultClear tag bay s
  | .faultRead tag bay => Sys2Proof.Machine.execFaultRead tag bay s
  | .channelClear tag channel => Sys2Proof.Machine.execChannelClear tag channel s
  | .channelStop tag channel => Sys2Proof.Machine.execChannelStop tag channel s
  | .channelRead tag channel => Sys2Proof.Machine.execChannelRead tag channel s
  | .jobMaint tag bay op area addr count data => Sys2Proof.Machine.execJobMaint tag bay op area addr count data s
  | .jobRefresh tag bay => Sys2Proof.Machine.execJobRefresh tag bay s
  | .jobCancel tag job => Sys2Proof.Machine.execJobCancel tag job s
  | .jobRead tag job => Sys2Proof.Machine.execJobRead tag job s
  | .jobQueueRead tag => Sys2Proof.Machine.execJobQueueRead tag s
  | .jobStatsClear tag => Sys2Proof.Machine.execJobStatsClear tag s
  | .imageBegin tag slot revision pages checksum => Sys2Proof.Machine.execImageBegin tag slot revision pages checksum s
  | .imagePage tag slot page data => Sys2Proof.Machine.execImagePage tag slot page data s
  | .imageSeal tag slot => Sys2Proof.Machine.execImageSeal tag slot s
  | .imageRead tag slot => Sys2Proof.Machine.execImageRead tag slot s
  | .issue tag rack cls unit tour language => Sys2Proof.Machine.execIssue tag rack cls unit tour language s
  | .issueCancel tag issue => Sys2Proof.Machine.execIssueCancel tag issue s
  | .issueRead tag issue => Sys2Proof.Machine.execIssueRead tag issue s
  | .reportEnable tag on off => Sys2Proof.Machine.execReportEnable tag on off s
  | .set tag fields => Sys2Proof.Machine.execSet tag fields s
  | .get tag names => Sys2Proof.Machine.execGet tag names s
  | .profileSave tag => Sys2Proof.Machine.execProfileSave tag s
  | .storeFormat tag => Sys2Proof.Machine.execStoreFormat tag s
  | .restart tag => Sys2Proof.Machine.execRestart tag s
  | .status tag => Sys2Proof.Machine.execStatus tag s
  | .profileSaveDone => Sys2Proof.Machine.execProfileSaveDone s
  | .retireListSaveDone => Sys2Proof.Machine.execRetireListSaveDone s
  | .regionEraseDone => Sys2Proof.Machine.execRegionEraseDone s
  | .imagePageWriteDone => Sys2Proof.Machine.execImagePageWriteDone s
  | .headerWriteDone => Sys2Proof.Machine.execHeaderWriteDone s
  | .zoneHello zone => Sys2Proof.Machine.execZoneHello zone s
  | .cycleMark zone mark => Sys2Proof.Machine.execCycleMark zone mark s
  | .downTimerExpiry zone => Sys2Proof.Machine.execDownTimerExpiry zone s
  | .housePeriodElapse => Sys2Proof.Machine.execHousePeriodElapse s
  | .lingerExpiry zone stream => Sys2Proof.Machine.execLingerExpiry zone stream s
  | .silenceExpiry unit => Sys2Proof.Machine.execSilenceExpiry unit s
  | .noticeLifeExpiry unit => Sys2Proof.Machine.execNoticeLifeExpiry unit s
  | .pollTimerElapse rack => Sys2Proof.Machine.execPollTimerElapse rack s
  | .busTurnTimeout => Sys2Proof.Machine.execBusTurnTimeout s
  | .rackHello rack bayCount revision => Sys2Proof.Machine.execRackHello rack bayCount revision s
  | .setupDone rack => Sys2Proof.Machine.execSetupDone rack s
  | .surveyAnswer rack occupants => Sys2Proof.Machine.execSurveyAnswer rack occupants s
  | .pollAnswer rack events => Sys2Proof.Machine.execPollAnswer rack events s
  | .dockAccept rack => Sys2Proof.Machine.execDockAccept rack s
  | .rampTimerElapse rack => Sys2Proof.Machine.execRampTimerElapse rack s
  | .holdTimerElapse rack => Sys2Proof.Machine.execHoldTimerElapse rack s
  | .chargeWatchExpiry bay => Sys2Proof.Machine.execChargeWatchExpiry bay s
  | .dockNoAnswerLimit channel => Sys2Proof.Machine.execDockNoAnswerLimit channel s
  | .limitTimerExpiry issue => Sys2Proof.Machine.execLimitTimerExpiry issue s
  | .pickTimerExpiry issue => Sys2Proof.Machine.execPickTimerExpiry issue s

end Sys2Proof.Machine
end

