-- ==== Sys2Proof/Machine/Step.lean ====
section
/-! DEFINITION. One step: the command at the front of the queue, or a millisecond of the time base. -/

namespace Sys2Proof.Machine

/-- A millisecond passes (DESIGN CHOICE, log 1): timers are deadlines, and their rows are the events. -/
def State.tick (s : State) : State := { s with part := { s.part with now := s.part.now + 1 } }

/-- The command at the front of the queue is carried out on the state with the queue's rest; with an
empty queue a millisecond passes. -/
def step (s : State) : Host.Outcome State Fault Refusal :=
  match s.pending with
  | [] => .next s.tick
  | c :: rest => exec c { s with pending := rest }

/-- The command a word spells put at the front of the queue; no row of the table gives bits, so no word
spells one. -/
def State.withFetchWord (s : State) (nbits w : Nat) : State :=
  match Sys2Proof.decodeTableWord nbits w with
  | some c => { s with pending := c :: s.pending }
  | none => s

end Sys2Proof.Machine
end

