-- ==== Sys2Proof/WellFormed.lean ====
section
/-! DEFINITION. Well-formed commands: the bounds the manual puts on what a message, a frame or a mark
carries. A host verb's fields are any fields; the verb's own rule judges them. -/

namespace Sys2Proof

/-- The tag of a host verb's COMMAND frame, 1 to 255 (R192, R193). -/
def Instr.hostTag : Instr → Option Byte
  | .command tag _ => some tag
  | .tourOpen tag _ _ _ _ | .tourStart tag _ | .tourPause tag _ | .tourClose tag _
  | .tourCapacity tag _ _ | .tourRead tag _ | .tourVoiceAdd tag _ _ _ | .tourVoiceDrop tag _ _
  | .unitRead tag _ | .unitList tag _ _ | .unitForget tag _ | .unitUnassign tag _
  | .unitRetune tag _ _ _ | .unitLocate tag _ | .unitRetire tag _ | .retirePurge tag _
  | .retireList tag _ _ | .zoneRead tag _ | .zoneSlots tag _ | .zoneStatsClear tag _
  | .houseStart tag _ _ | .houseZones tag _ | .houseStop tag | .houseRead tag | .rackRead tag _
  | .bayRead tag _ | .bayDisable tag _ | .bayEnable tag _ | .faultClear tag _ | .faultRead tag _
  | .channelClear tag _ | .channelStop tag _ | .channelRead tag _ | .jobMaint tag _ _ _ _ _ _
  | .jobRefresh tag _ | .jobCancel tag _ | .jobRead tag _ | .jobQueueRead tag | .jobStatsClear tag
  | .imageBegin tag _ _ _ _ | .imagePage tag _ _ _ | .imageSeal tag _ | .imageRead tag _
  | .issue tag _ _ _ _ _ | .issueCancel tag _ | .issueRead tag _ | .reportEnable tag _ _
  | .set tag _ | .get tag _ | .profileSave tag | .storeFormat tag | .restart tag | .status tag =>
    some tag
  | _ => none

/-- The bounds of a status record (spec 02 section 2.3). -/
def StatusRecord.wf (r : StatusRecord) : Bool :=
  decide (r.quality ≤ 63) && decide (r.level ≤ 100)

/-- The bounds of a CYCLE_MARK: 0 to 2 status records, 0 to 7 voice packets (R46). -/
def CycleMark.wf (m : CycleMark) : Bool :=
  decide (m.statuses.length ≤ 2) && decide (m.packets.length ≤ 7) && m.statuses.all StatusRecord.wf

/-- The data a dock answer returns: 21 bytes of ident, 256 bytes of a page (R157, R159). -/
def DockData.wf : DockData → Bool
  | .ident bytes => bytes.length == 21
  | .page bytes => bytes.length == Config.pageBytes
  | _ => true

/-- The bounds of a POLL_ANSWER event (R99). -/
def PollEvent.wf : PollEvent → Bool
  | .dockAnswer _ _ _ (.done d) => d.wf
  | _ => true

/-- Well-formed commands. -/
def Instr.wf (i : Instr) : Bool :=
  (match i.hostTag with
    | some tag => tag != 0
    | none => true) &&
  (match i with
    | .hostFrameDiscarded bytes => !bytes.isEmpty
    | .audio track body =>
      decide (1 ≤ track.toNat) && decide (track.toNat ≤ 4) && !body.isEmpty && decide (body.length ≤ maxBody)
    | .command _ body => decide (body.length ≤ maxBody)
    | .cycleMark _ m => m.wf
    | .surveyAnswer _ seen => decide (seen.length ≤ 24)
    | .pollAnswer _ es => decide (es.length ≤ 32) && es.all PollEvent.wf
    | _ => true)

end Sys2Proof
end

