-- ==== Sys2Proof/Safety.lean ====
section
/-! DEFINITION. The properties and frames the statements are written in: a part that takes a command and
the answer it gives, the two invariants every step keeps, and relations that say what an operation
may change. -/

namespace Sys2Proof

/-! ### Kinds of commands -/

/-- The host verbs whose commands read and change nothing. -/
def Instr.reads : Instr → Bool
  | .tourRead _ _ | .unitRead _ _ | .unitList _ _ _ | .retireList _ _ _ | .zoneRead _ _
  | .zoneSlots _ _ | .houseRead _ | .rackRead _ _ | .bayRead _ _ | .faultRead _ _
  | .channelRead _ _ | .jobRead _ _ | .jobQueueRead _ | .imageRead _ _ | .issueRead _ _
  | .get _ _ | .status _ => true
  | _ => false

/-- The commands a part takes while its start-up load is in progress (R204). -/
def Instr.duringLoad : Instr → Bool
  | .powerOn _ | .resetLine _ | .startUpLoadDone => true
  | _ => false

/-- The commands that may write the nonvolatile store: resets, which cut an operation short, the end of
the reply to RESTART, and the ends of store operations (R200, R204). -/
def Instr.writesStore : Instr → Bool
  | .powerOn _ | .resetLine _ | .replySent | .profileSaveDone | .retireListSaveDone | .regionEraseDone
  | .imagePageWriteDone | .headerWriteDone => true
  | _ => false

end Sys2Proof

namespace Sys2Proof.Machine

/-! ### Commands and their answers (R194, R195) -/

/-- A COMMAND of this tag fills the slot: the load has ended, the tag is not 0 and the slot is empty. -/
abbrev State.takes (s : State) (tag : Byte) : Prop :=
  s.deaf = false ∧ tag ≠ 0 ∧ s.link.slot = none

/-- A reply is on the line or ready to be sent. -/
abbrev State.awaits (t : State) (r : Reply) : Prop :=
  t.link.line = some (.reply r) ∨ r ∈ t.link.ready

/-- The command fills the slot, its frame leaves the framer HUNTING, and its reply, with this result and
these fields, is on the line or ready; the store and the queue are as before. -/
abbrev State.answered (s t : State) (tag : Byte) (verb : Text) (r : ResultWord) (fs : Fields) : Prop :=
  t.link.framer = .hunting ∧ t.link.slot = some ⟨tag, verb, false⟩ ∧ t.awaits ⟨true, tag, verb, r, fs⟩ ∧
  t.nv = s.nv ∧ t.pending = s.pending

/-- The command fills the slot and its reply waits for the end of a store operation (R195, R200). -/
abbrev State.held (s t : State) (tag : Byte) (verb : Text) : Prop :=
  t.link.framer = .hunting ∧ t.link.slot = some ⟨tag, verb, false⟩ ∧ t.nv = s.nv ∧ t.pending = s.pending

/-- What an event that is no command keeps: the framer, the slot, the store, the queue, and the whole link
port while a frame is on the line. -/
abbrev State.after (s t : State) : Prop :=
  t.link.framer = s.link.framer ∧ t.link.slot = s.link.slot ∧ t.nv = s.nv ∧ t.pending = s.pending ∧
  (s.link.line.isSome = true → t.link = s.link)

/-! ### The invariant -/

/-- Both image regions in canonical form. -/
def Nv.wf (n : Nv) : Bool := n.listenerImage.wf && n.voiceImage.wf

/-- A free serializer has nothing ready to send (R196). -/
def State.settled (s : State) : Bool :=
  s.link.line.isSome || (s.link.ready.isEmpty && s.part.reports.isEmpty)

/-- The invariant: the store's memory is canonical, a free serializer has nothing ready, and at most four
BUSY replies wait (R195, R196). -/
def State.inv (s : State) : Bool :=
  s.nv.wf && s.settled && decide (s.link.busyWaiting ≤ Config.busyReplies)

/-! ### The invariant of the records (spec 01, 02, 06, 09, 10) -/

/-- The unit table: places in rising order below 1024, and no unit listed twice (R20, R22). -/
def Part.tableSound (p : Part) : Prop :=
  (p.units.map (·.1)).Pairwise (· < ·) ∧ (∀ x ∈ p.units, x.1 < 1024) ∧ (p.units.map (·.2.unit)).Nodup

/-- The table and the bays agree: an entry is DOCKED exactly when it has a bay, that bay alone records its unit
as a listed occupant, a DOCKED entry runs no silence timer, and an unlisted occupant has no entry (R21, R25,
R106). -/
def Part.docksSound (p : Part) : Prop :=
  (∀ x ∈ p.units, (x.2.state = .docked ↔ x.2.bay.isSome = true) ∧ (x.2.state = .docked → x.2.silence = none) ∧
    ∀ (r : RackNo) (n : BayNo), x.2.bay = some ⟨r, n⟩ ↔ (p.bay ⟨r, n⟩).occupant = some ⟨x.2.unit, true⟩) ∧
  ∀ (r : RackNo) (n : BayNo), ∀ o ∈ (p.bay ⟨r, n⟩).occupant, o.listed = (p.entry o.unit).isSome

/-- A LIVE tour has its floor source, and no tour more than four sources or two of one language (R4, R10, R12). -/
def Part.toursSound (p : Part) : Prop :=
  ∀ k : TourNo, ((p.tour k).state = .live → (p.tour k).hasFloor = true) ∧ (p.tour k).sources.length ≤ 4 ∧
    ((p.tour k).sources.map (·.1)).Nodup

/-- The channel's records agree with its state: IDLE without a job, RUNNING with an active one, YIELDING with an
active and no parked one, LOCKED without an active one, a transaction only beside an active job (R153). -/
def Channel.sound (h : Channel) : Bool :=
  (h.active.isSome || h.tx.isNone) &&
  match h.state with
  | .idle => h.active.isNone && h.parked.isNone
  | .running => h.active.isSome
  | .yielding => h.active.isSome && h.parked.isNone
  | .locked => h.active.isNone

/-- At most 32 jobs are QUEUED, no two jobs that have not ended hold one number, and every channel is sound (R149,
R152, R153). -/
def Part.jobsSound (p : Part) : Prop :=
  p.queue.length ≤ 32 ∧ (p.jobs.map (·.number)).Nodup ∧ ∀ c : ChannelNo, (p.channel c).sound = true

/-- A bay's binding names a job bound to it, and every job is bound to a bay whose listed occupant is its unit and
whose binding names it (R149, R150). -/
def Part.bindingsSound (p : Part) : Prop :=
  (∀ j ∈ p.jobs, (p.bay j.bay).job = some j.number ∧ (p.bay j.bay).occupant = some ⟨j.unit, true⟩) ∧
  ∀ (r : RackNo) (n : BayNo), ∀ k ∈ (p.bay ⟨r, n⟩).job, ∃ j ∈ p.jobs, j.number = k ∧ j.bay = ⟨r, n⟩

/-- A TUNING record runs its limit timer alone, a PICKING record its pick timer alone, any other neither (R177,
R183, R184). -/
def Part.issuesSound (p : Part) : Prop :=
  ∀ n : IssueNo,
    (p.issue n).limit.isSome = decide ((p.issue n).state = .tuning) ∧
    (p.issue n).pick.isSome = decide ((p.issue n).state = .picking)

/-- The law of R15: every tour's count is the claims that name it, those of entries, of issue records in progress and
of reserving notices, and never above its capacity; a FREE tour holds the FREE values and a CLOSING one a claim
(R1, R7). -/
def Part.countsSound (p : Part) : Prop :=
  ∀ k : TourNo, (p.tour k).count = p.heldCount k + p.issuingCount k + p.retuningCount k ∧
    (p.tour k).count ≤ (p.tour k).capacity ∧ ((p.tour k).state = .free → p.tour k = Tour.free) ∧
    ((p.tour k).state = .closing → (p.tour k).count ≠ 0)

/-- Who holds claims: only a LISTENER entry an assignment or a RETUNE, a DOCKED entry no assignment and no notice; a
RETUNE has a target, and none but a RETUNE reserves; a record in progress names a bay, no other such record's,
whose listed occupant is its unit, of its class, and a tune just for a LISTENER (R15, R23, R72, R177, R180). -/
def Part.claimantsSound (p : Part) : Prop :=
  (∀ x ∈ p.units, (x.2.cls = .voice → x.2.assignment = none) ∧
    (x.2.state = .docked → x.2.assignment = none ∧ x.2.notice = none) ∧
    ∀ n ∈ x.2.notice, (n.kind = .retune → x.2.cls = .listener ∧ n.target.isSome = true) ∧
      (n.reserving = true → n.kind = .retune)) ∧
  (∀ n : IssueNo, (p.issue n).state.inProgress = true →
    (p.issue n).cls.isSome = true ∧ (p.issue n).tune.isSome = decide ((p.issue n).cls = some .listener) ∧
    ((p.issue n).unit.bind p.entry).map (·.cls) = (p.issue n).cls ∧
    (p.issue n).bay.bind (fun b => (p.bay b).occupant) = (p.issue n).unit.map fun u => ⟨u, true⟩) ∧
  ∀ m n : IssueNo, (p.issue m).state.inProgress = true → (p.issue n).state.inProgress = true →
    (p.issue m).bay = (p.issue n).bay → m = n

/-- A bay stands in its rack's ready queue at most once, and only while every ready condition holds for it (R115).
-/
def Part.readySound (p : Part) : Prop :=
  ∀ r : RackNo, (p.rack r).ready.Nodup ∧ ∀ n ∈ (p.rack r).ready, p.readyHolds ⟨r, n⟩ = true

/-- The invariant of the records; while the start-up load is in progress the part is as the reset left it but for
the time (R204). -/
def State.recordsSound (s : State) : Prop :=
  s.part.tableSound ∧ s.part.docksSound ∧ s.part.toursSound ∧ s.part.countsSound ∧ s.part.claimantsSound ∧
  s.part.readySound ∧ s.part.jobsSound ∧ s.part.bindingsSound ∧ s.part.issuesSound ∧
  (s.deaf = true → s.part =
    { Part.initial s.part.store.cause s.part.store.straps s.part.store.baud s.part.freeCount with
      now := s.part.now })

/-- No bay owes an IDENTIFY or holds a need: the engine has no work to queue of its own (R151). -/
def Part.noWork (p : Part) : Prop :=
  ∀ b : BayRef, (p.bay b).identifyOwed = false ∧ (p.bay b).needUntune = false ∧ (p.bay b).needRefresh = false

/-- The reserving RETUNE notices that name a tour: the claims they hold (R6, R16). -/
def Part.reservedOn (p : Part) (k : TourNo) : Nat :=
  p.units.countP fun x => match x.2.notice with
    | some n => n.kind == .retune && n.reserving && (n.target.map (·.tour)) == some k
    | none => false

/-- The value a SET leaves in a parameter it carries: that of the last field that names it (R202). -/
def lastSet (fs : List (Param × SetValue)) (q : Param) : Option SetValue :=
  (fs.reverse.find? fun f => f.1 == q).map (·.2)

/-! ### Frames -/

/-- The stored header of an image slot. -/
def Nv.header (n : Nv) : UnitClass → Stored ImageHeader
  | .listener => n.listenerHeader
  | .voice => n.voiceHeader

/-- Only the pending set of reports may differ. -/
def ReportStep (p q : Part) : Prop := q = { p with reports := q.reports }

/-- Only zone records and the pending set may differ. -/
def ZoneStep (p q : Part) : Prop := q = { p with zones := q.zones, reports := q.reports }

/-- Only tours, unit entries, zone records, the frame store and the pending set may differ. -/
def AirStep (p q : Part) : Prop :=
  q = { p with
    tours := q.tours, units := q.units, zones := q.zones, frames := q.frames, reports := q.reports }

/-- A bay without what the provisioning engine, the bus and the displays change of it. -/
def Bay.still (y : Bay) : Bay :=
  { y with
    job := none, needUntune := false, needRefresh := false, identifyOwed := false, refreshHold := false
    lastJob := none, pickMark := false, display := .off, ordered := .off
    chargeOrder := none, displayOrder := none }

/-- A rack without what the provisioning engine, the bus and the displays change of it. -/
def Rack.still (k : Rack) : Rack :=
  { k with ready := [], pollDue := none, setupOrder := none, bays := k.bays.map Bay.still }

/-- What the engine, the displays and the bus may change at the end of an event: jobs, channels, the bus,
the store engine's flags and retire list save, and of racks and bays the orders, marks, needs, bindings
and ready queues. Every tour, entry, zone, issue record, session and fault record stays. -/
def EngineStep (p q : Part) : Prop :=
  q = { p with
    racks := q.racks, bus := q.bus, queue := q.queue, lastJobNumber := q.lastJobNumber
    peakQueue := q.peakQueue, channels := q.channels, store := q.store, reports := q.reports } ∧
  q.racks.map Rack.still = p.racks.map Rack.still ∧
  q.store = { p.store with
    op := q.store.op, retireDirty := q.store.retireDirty, corrected := q.store.corrected } ∧
  (p.store.op.isSome = true → q.store.op = p.store.op)

/-- What the end of a dock turn at time `m` leaves of the channel that had it, with its job and transaction: the
request has gone out and its no-answer limit runs (R100, R158), no turn of the channel is left, the first
erase of a REFRESH has made the unit's firmware INCOMPLETE (R164), and beside that only what the end of an
event may change. -/
def TurnEnded (p q : Part) (c : ChannelNo) (j : Job) (w : Transaction) (m : Millis) : Prop :=
  (q.channel c).active = some j ∧
  (q.channel c).tx = some { w with status := .out (m + if w.dock = .blockErase then 1000 else 300) } ∧
  (∀ b serial a k y, q.bus.turn ≠ some (.dock c b serial a k, y)) ∧
  (∀ cls e, j.work = .refresh cls → w.dock = .blockErase → j.erased = 0 → p.entry j.unit = some e →
    q.entry j.unit = some { e with fwState := .incomplete }) ∧
  EngineStep ((({ p with now := m } : Part).endTurn).requestGone c w.serial) q

/-- A rack's link state alone (R98). -/
def Rack.shell (k : Rack) : Rack :=
  { k with
    ready := [], pollDue := none, setupOrder := none, showState := .idle
    bays := Vector.replicate 24 Bay.initial }

/-- What the events of a rack module may change: everything but the time, the profile, the house program,
the image slots and the racks' link states. -/
def RackStep (p q : Part) : Prop :=
  q = { p with
    tours := q.tours, units := q.units, zones := q.zones, frames := q.frames, racks := q.racks
    bus := q.bus, queue := q.queue, lastJobNumber := q.lastJobNumber, peakQueue := q.peakQueue
    retireList := q.retireList, channels := q.channels, issues := q.issues, store := q.store
    reports := q.reports } ∧
  q.racks.map Rack.shell = p.racks.map Rack.shell ∧
  q.store = { p.store with
    op := q.store.op, retireDirty := q.store.retireDirty, corrected := q.store.corrected }

end Sys2Proof.Machine
end

