-- ==== Sys2Proof/Certificates/Slice0/Obligations.lean ====
section
/-! DEFINITION. The statements for the provers. -/

open Sys2Proof Sys2Proof.Machine

/-! ### The machine -/

/-- A step carries out the command at the front of the queue on the state with the queue's rest. With no
command waiting a step lets one millisecond of the time base pass (the model's choice, log 1). -/
def Obligations.StepRunsTheFrontCommandOrLetsAMillisecondPass : Prop :=
  (∀ (c : Instr) (rest : List Instr) (s : State),
    step { s with pending := c :: rest } = exec c { s with pending := rest }) ∧
  (∀ s : State, s.pending = [] → step s = .next { s with part := { s.part with now := s.part.now + 1 } })

/-- Every command answers a next state, and none changes the queue of commands waiting. That a full reset keeps
the queue too is the model's choice (log 24). -/
def Obligations.EveryCommandAnswersNextAndKeepsTheQueue : Prop :=
  ∀ (i : Instr) (s : State), ∃ t, exec i s = .next t ∧ t.pending = s.pending

/-- The two invariants, of the link and the store and of the records, hold at reset. -/
def Obligations.InvariantHoldsAtReset : Prop :=
  State.reset.inv = true ∧ State.reset.recordsSound

/-- Every step keeps the invariant: canonical image memory, nothing ready at a free serializer, at most four
BUSY replies waiting. -/
def Obligations.StepKeepsTheInvariant : Prop :=
  ∀ s t : State, s.inv = true → step s = .next t → t.inv = true

/-- Every step keeps the invariant of the records: the unit table lists its places in rising order and no unit
twice; an entry is DOCKED exactly when a bay records its unit, which no silence timer then runs for; a LIVE
tour has its floor source and no tour more than four; the queue holds at most 32 jobs, no two jobs hold one
number, and each channel's jobs are as its state says; a TUNING record runs its limit timer alone and a
PICKING record its pick timer; and while the load is in progress the part is as the reset left it. Every tour's
count is the claims that name it, held, issuing and retuning, and never above its capacity; a claim is held as
the rules give it; a ready queue holds only bays for which the ready conditions hold; and a bay's binding and
its job name each other. -/
def Obligations.StepKeepsTheRecordsSound : Prop :=
  ∀ s t : State, s.recordsSound → step s = .next t → t.recordsSound

/-- Only resets and the ends of store operations write the nonvolatile store. -/
def Obligations.OnlyResetsAndOperationEndsWriteTheStore : Prop :=
  ∀ (i : Instr) (s t : State), i.writesStore = false → exec i s = .next t → t.nv = s.nv

/-- While the start-up load is in progress every command but a reset and the load's own end is discarded. -/
def Obligations.CommandsDuringTheLoadAreDiscarded : Prop :=
  ∀ (i : Instr) (s : State), s.deaf = true → i.duringLoad = false → exec i s = .next s

/-! ### Resets and the load (R200, R204, R206) -/

/-- A power-on and the reset line make a full reset: the link port, tours, units, frames, house record, jobs,
channels, issue records, bus and bays take their reset values, no report is pending, the store engine's
operation and retire-dirty are gone, and the start-up load begins. That the queue of commands waiting stays
is the model's choice (log 24). -/
def Obligations.FullResetClearsTheVolatileState : Prop :=
  ∀ (s : State) (x : Straps) (line : Bool),
    ∃ t, exec (if line then .resetLine x else .powerOn x) s = .next t ∧
      t.link = ⟨.hunting, none, [], none⟩ ∧ t.pending = s.pending ∧ t.deaf = true ∧
      t.part.store.cause = (if line then ResetCause.resetLine else .powerOn) ∧
      t.part.store.op = none ∧ t.part.store.retireDirty = false ∧ t.part.reports = [] ∧
      (∀ k, t.part.tour k = ⟨.free, [], none, 0, 0, []⟩) ∧ t.part.units = [] ∧
      t.part.frames = ⟨[], 0⟩ ∧ t.part.house = ⟨false, [], [], false, none⟩ ∧ t.part.queue = [] ∧
      t.part.lastJobNumber = 0 ∧ t.part.peakQueue = 0 ∧
      (∀ c, t.part.channel c = ⟨.idle, none, none, none, 0, none, none⟩) ∧
      (∀ n, t.part.issue n = Issue.free) ∧ t.part.bus = ⟨none, 3⟩ ∧ ∀ b, t.part.bay b = Bay.initial

/-- The straps read at a full reset, by power-on, by the reset line or after the reply to RESTART, select the
rate, and nothing but a full reset changes it. That their levels are operands of the first two commands, and a
free value where RESTART's reply has been sent, is the model's choice (log 8); the clause holds for every value
of it. -/
def Obligations.StrapsSelectTheRateAtEachFullReset : Prop :=
  (∀ (s : State) (r1 r0 : Bool),
    ∃ t u, exec (.powerOn ⟨r1, r0⟩) s = .next t ∧ exec (.resetLine ⟨r1, r0⟩) s = .next u ∧
      t.part.store.baud = u.part.store.baud ∧
      t.part.store.baud =
        (if r1 = false ∧ r0 = false then 115200
         else if r1 = false ∧ r0 = true then 460800
         else if r1 = true ∧ r0 = false then 921600
         else 115200)) ∧
  (∀ (s : State) (r : Reply) (y : Slot) (x : Straps), s.deaf = false →
    s.link.line = some (.reply r) → r.outstanding = true → s.link.slot = some y →
    x = Config.strapsAtRestart s.part.freeCount →
    ∃ t, exec .replySent s = .next t ∧
      t.part.store.baud =
        (if y.resetAfter = false then s.part.store.baud
         else if x.rate1 = false ∧ x.rate0 = false then 115200
         else if x.rate1 = false ∧ x.rate0 = true then 460800
         else if x.rate1 = true ∧ x.rate0 = false then 921600
         else 115200)) ∧
  ∀ (i : Instr) (s t : State), exec i s = .next t →
    (∀ x, i ≠ .powerOn x ∧ i ≠ .resetLine x ∧ i ≠ .replySent) → t.part.store.baud = s.part.store.baud

/-- The end of the load: the profile, the retire list and the image headers are those of the store, a blank or
failing record gives the defaults with its outcome, every zone and rack stands as the profile enables it,
and the START report is begun on a free line. Stated for a store without upset words. -/
def Obligations.StartUpLoadTakesTheStore : Prop :=
  ∀ s : State, s.deaf = true → s.nv.upsets = [] →
    ∃ t, exec .startUpLoadDone s = .next t ∧ t.deaf = false ∧ t.nv = s.nv ∧ t.pending = s.pending ∧
      (match s.nv.profile with
        | .record f => t.part.profile = f ∧ t.part.store.profileOutcome = .loaded
        | .erased => t.part.profile = Profile.default ∧ t.part.store.profileOutcome = .blank
        | .failsCheck => t.part.profile = Profile.default ∧ t.part.store.profileOutcome = .checkFailed) ∧
      (match s.nv.retire with
        | .record l => t.part.retireList = l ∧ t.part.store.retireOutcome = .loaded
        | .erased => t.part.retireList = [] ∧ t.part.store.retireOutcome = .blank
        | .failsCheck => t.part.retireList = [] ∧ t.part.store.retireOutcome = .checkFailed) ∧
      t.part.listenerSlot =
        (match s.nv.listenerHeader with | .record (.sealed r n c) => .sealed r n c | _ => .empty) ∧
      t.part.voiceSlot =
        (match s.nv.voiceHeader with | .record (.sealed r n c) => .sealed r n c | _ => .empty) ∧
      (∀ z : ZoneNo, (t.part.zone z).state =
        (if (t.part.profile.zones[z]).enable then .down else .disabled)) ∧
      (∀ r : RackNo, (t.part.rack r).state =
        (if t.part.profile.rackEnable[r] then .offline else .disabled)) ∧
      (s.link.line = none → s.link.ready = [] → s.part.reports = [] →
        t.part.profile.disabledKinds.contains .start = false →
        ∃ r, t.link.line = some (.report r) ∧ r.source = .system ∧ r.kinds = [.start])

/-- A full reset that cuts a write short leaves the record being written failing its check, and the records it
does not write as they were. That a cut-short page write leaves the store as it was, and a cut-short region
erase of IMAGE_BEGIN its region with the header failing its check, is the model's choice (log 16). -/
def Obligations.ResetCutsShortAStoreWrite : Prop :=
  ∀ (s : State) (x : Straps) (op : StoreOp), s.part.store.op = some op →
    ∃ t, exec (.resetLine x) s = .next t ∧ t.part.store.op = none ∧
      match op with
      | .profileSave _ => t.nv = { s.nv with profile := .failsCheck }
      | .retireSave _ => t.nv = { s.nv with retire := .failsCheck }
      | .headerWrite .listener _ _ => t.nv = { s.nv with listenerHeader := .failsCheck }
      | .headerWrite .voice _ _ => t.nv = { s.nv with voiceHeader := .failsCheck }
      | .regionErase (.imageBegin .listener) => t.nv = { s.nv with listenerHeader := .failsCheck }
      | .regionErase (.imageBegin .voice) => t.nv = { s.nv with voiceHeader := .failsCheck }
      | .pageWrite _ _ _ => t.nv = s.nv
      | .regionErase .format => t.nv.upsets = s.nv.upsets

/-! ### The host line (R191 to R198) -/

/-- A break and a character error leave the framer HUNTING and everything behind the link as it was but for a
report taken. Bytes that are no accepted frame: a byte that is not D5 leaves the framer HUNTING, D5 opens
a frame, and a length outside 2 to 1026 ends it. -/
def Obligations.LineEventsMoveTheFramerAlone : Prop :=
  (∀ s : State, s.deaf = false →
    ∃ t u, exec .lineBreak s = .next t ∧ exec .characterError s = .next u ∧ u = t ∧
      t.link.framer = .hunting ∧ t.link.slot = s.link.slot ∧ t.nv = s.nv ∧ t.pending = s.pending ∧
      ReportStep s.part t.part) ∧
  (∀ (s : State), s.deaf = false → s.link.framer = .hunting →
    (∀ b : Byte, ∃ t, exec (.hostFrameDiscarded [b]) s = .next t ∧
      t.link.framer = (if b = 0xD5#8 then .inFrame [] else .hunting) ∧ t.link.slot = s.link.slot ∧
      t.nv = s.nv ∧ t.pending = s.pending ∧ ReportStep s.part t.part) ∧
    (∀ hi lo : Byte, hi ≠ 0xD5#8 → lo ≠ 0xD5#8 →
      (256 * hi.toNat + lo.toNat < 2 ∨ 1026 < 256 * hi.toNat + lo.toNat) →
      ∃ t, exec (.hostFrameDiscarded [0xD5#8, hi, lo]) s = .next t ∧ t.link.framer = .hunting ∧
        t.link.slot = s.link.slot ∧ t.nv = s.nv ∧ t.pending = s.pending ∧ ReportStep s.part t.part))

/-- A COMMAND frame acts as the host verb its body spells; a body that spells none is answered BADARG with its
first word and changes nothing behind the link. That the row of a verb is the COMMAND frame that spells it is
the model's choice (log 4), with the frame and its verb in one step (log 5) and the spaces and names of a
record as the model reads them (log 15). -/
def Obligations.CommandFrameActsAsTheVerbItSpells : Prop :=
  (∀ (s : State) (tag : Byte) (body : List Byte) (i : Instr), parseCommand tag body = some i →
    i.hostTag = some tag ∧ ∃ t, exec (.command tag body) s = .next t ∧ exec i s = .next t) ∧
  ∀ (s : State) (tag : Byte) (body : List Byte), s.takes tag → parseCommand tag body = none →
    ∃ t, exec (.command tag body) s = .next t ∧
      s.answered t tag (echoVerb body) .badArg [] ∧ t.part = s.part

/-- A command taken while the slot holds another is answered BUSY with its own tag, or discarded while four
BUSY replies wait; the slot and the part stay as they were but for a report taken. -/
def Obligations.SecondCommandIsAnsweredBusy : Prop :=
  ∀ (s : State) (i : Instr) (tag : Byte) (x : Slot),
    i.hostTag = some tag → s.deaf = false → tag ≠ 0 → s.link.slot = some x →
    ∃ t, exec i s = .next t ∧ t.link.slot = some x ∧ t.nv = s.nv ∧ t.pending = s.pending ∧
      ReportStep s.part t.part ∧
      (s.link.busyWaiting < 4 → ∃ verb, t.awaits ⟨false, tag, verb, .busy, []⟩) ∧
      (4 ≤ s.link.busyWaiting → t.link.busyWaiting ≤ s.link.busyWaiting)

/-- The end of the outstanding reply empties the slot; after RESTART's reply the part takes a full reset. The
end of a BUSY reply frees the serializer, which takes what is ready next; the slot stays. That the full
reset keeps the queue of commands waiting is the model's choice (log 24). -/
def Obligations.EndsOfRepliesFreeTheSlotAndTheSerializer : Prop :=
  (∀ (s : State) (r : Reply) (x : Slot), s.deaf = false → s.link.line = some (.reply r) →
    r.outstanding = true → s.link.slot = some x →
    ∃ t, exec .replySent s = .next t ∧ t.link.slot = none ∧ t.pending = s.pending ∧
      (x.resetAfter = false → t.nv = s.nv ∧ ReportStep s.part t.part) ∧
      (x.resetAfter = true → t.deaf = true ∧ t.part.store.cause = .restart ∧ t.part.units = [] ∧
        t.link = ⟨.hunting, none, [], none⟩)) ∧
  (∀ (s : State) (r : Reply), s.deaf = false → s.link.line = some (.reply r) → r.outstanding = false →
    ∃ t, exec .busyReplySent s = .next t ∧ t.link.slot = s.link.slot ∧ t.nv = s.nv ∧
      t.pending = s.pending ∧ ReportStep s.part t.part ∧
      t.link.line = (match s.link.ready with
        | q :: _ => some (.reply q)
        | [] => s.part.topReport.map fun x => .report (s.part.composeReport x)))

/-- The end of a report's sending frees the issue record it showed in a final state, unless the record has
changed since; every other issue record, and the rest of the part but for a report taken, stays. -/
def Obligations.ReportSentFreesTheIssueItShowed : Prop :=
  ∀ (s : State) (r : Report), s.deaf = false → s.link.line = some (.report r) →
    ∃ t, exec .reportSent s = .next t ∧ t.link.slot = s.link.slot ∧ t.nv = s.nv ∧ t.pending = s.pending ∧
      (∀ n x, r.source = .issue n → r.final = some x → s.part.issue n = x →
        t.part.issue n = Issue.free ∧ ∀ m, m ≠ n → t.part.issue m = s.part.issue m) ∧
      (r.final = none → ReportStep s.part t.part) ∧
      ReportStep { s.part with issues := t.part.issues } t.part

/-- An AUDIO frame joins its track's buffer, the oldest frame leaving a buffer of 8; it is discarded while the
record is IDLE or for a track the program has not. -/
def Obligations.AudioFrameJoinsItsTracksBuffer : Prop :=
  ∀ (s : State) (track : Byte) (body : List Byte), s.deaf = false → 1 ≤ track.toNat → track.toNat ≤ 4 →
    body ≠ [] →
    ∃ t, exec (.audio track body) s = .next t ∧ t.link.framer = .hunting ∧ t.link.slot = s.link.slot ∧
      t.nv = s.nv ∧ t.pending = s.pending ∧
      ReportStep { s.part with house := t.part.house } t.part ∧
      (s.part.house.running = false → t.part.house = s.part.house) ∧
      (s.part.house.tracks.length < track.toNat → t.part.house = s.part.house) ∧
      (∀ k, s.part.house.running = true → s.part.house.tracks[track.toNat - 1]? = some k →
        t.part.house = { s.part.house with tracks := t.part.house.tracks } ∧
        t.part.house.tracks.length = s.part.house.tracks.length ∧
        (∀ n, n ≠ track.toNat - 1 → t.part.house.tracks[n]? = s.part.house.tracks[n]?) ∧
        (k.buffer.length < 8 → t.part.house.tracks[track.toNat - 1]? =
          some { k with buffer := k.buffer ++ [body], received := min (k.received + 1) 65535 }) ∧
        (8 ≤ k.buffer.length → t.part.house.tracks[track.toNat - 1]? =
          some { k with buffer := k.buffer.drop 1 ++ [body], received := min (k.received + 1) 65535
                        replaced := min (k.replaced + 1) 65535 }))

/-! ### Commands that read (R9, R39, R40, R68, R69, R96, R119, R120, R132, R137, R171, R172, R175, R189,
R202, R205) -/

/-- TOUR_READ, UNIT_READ, UNIT_LIST, RETIRE_LIST, ZONE_READ, ZONE_SLOTS and HOUSE_READ answer OK with the
fields of what they name, and change nothing behind the link. The forms of the fields that the rules leave open
are the model's choice: unit ids in capitals and bays in two digits (log 14); a notice's life rounded down, the
wait of an empty queue as - and the zones in ascending order (log 33). -/
def Obligations.ReadsOfToursUnitsAndZonesChangeNothing : Prop :=
  ∀ (s : State) (tag : Byte), s.takes tag →
    (∀ k : TourNo, ∃ t, exec (.tourRead tag (.val (k.val + 1))) s = .next t ∧
      s.answered t tag (txt "TOUR_READ") .ok (s.part.tourFields k) ∧ t.part = s.part) ∧
    (∀ u i e, validUnit u = true → s.part.find u = some (i, e) →
      ∃ t, exec (.unitRead tag (.val u)) s = .next t ∧
        s.answered t tag (txt "UNIT_READ") .ok (s.part.unitFields i e) ∧ t.part = s.part) ∧
    (∀ a n, a ≤ 1023 → 1 ≤ n → n ≤ 16 →
      ∃ t, exec (.unitList tag (.val a) (.val n)) s = .next t ∧
        s.answered t tag (txt "UNIT_LIST") .ok
          [fld "entries" (commas ((List.range (min n (1024 - a))).map fun i => s.part.placeText (a + i))),
           fld "next" (if a + n ≤ 1023 then numText (a + n) else txt "END")] ∧
        t.part = s.part) ∧
    (∀ a n, a ≤ 1023 → 1 ≤ n → n ≤ 16 →
      ∃ t, exec (.retireList tag (.val a) (.val n)) s = .next t ∧
        s.answered t tag (txt "RETIRE_LIST") .ok
          [fld "total" (numText s.part.retireList.length),
           fld "ids" (commasOrDash (((s.part.retireList.drop a).take n).map hex8)),
           fld "next" (if a + n < s.part.retireList.length then numText (a + n) else txt "END")] ∧
        t.part = s.part) ∧
    (∀ z : ZoneNo, ∃ t u, exec (.zoneRead tag (.val z.val)) s = .next t ∧
      exec (.zoneSlots tag (.val z.val)) s = .next u ∧
      s.answered t tag (txt "ZONE_READ") .ok (s.part.zoneFields z) ∧ t.part = s.part ∧
      s.answered u tag (txt "ZONE_SLOTS") .ok (s.part.slotFields z) ∧ u.part = s.part) ∧
    ∃ t, exec (.houseRead tag) s = .next t ∧
      s.answered t tag (txt "HOUSE_READ") .ok s.part.houseFields ∧ t.part = s.part

/-- RACK_READ, BAY_READ, FAULT_READ, CHANNEL_READ, JOB_READ, JOB_QUEUE_READ, IMAGE_READ, ISSUE_READ, GET and
STATUS answer OK with the fields of what they name, and change nothing behind the link. That GET ALL leaves
out the report enable set, and that the line carries those of its fields that fit in a body of 1,024 bytes, is the
model's choice (log 21). So are the forms of the fields that the rules leave open: hexadecimal in capitals, the
addresses of CHANNEL_READ in hexadecimal, bays in two digits and the words for a store operation (log 14); a
negative ma or temp, the order of the classes in the field fault, the number of a FREE issue record and the order
in which GET ALL lists the names of retire_after and recovery (log 33). -/
def Obligations.ReadsOfRacksJobsAndSettingsChangeNothing : Prop :=
  ∀ (s : State) (tag : Byte), s.takes tag →
    (∀ r : RackNo, ∃ t, exec (.rackRead tag (.val r.val)) s = .next t ∧
      s.answered t tag (txt "RACK_READ") .ok (s.part.rackFields r) ∧ t.part = s.part) ∧
    (∀ b : BayRef, s.part.present b = true →
      ∃ t u, exec (.bayRead tag (.val ⟨b.rack.val, b.no.val + 1⟩)) s = .next t ∧
        exec (.faultRead tag (.val ⟨b.rack.val, b.no.val + 1⟩)) s = .next u ∧
        s.answered t tag (txt "BAY_READ") .ok (s.part.bayFields b) ∧ t.part = s.part ∧
        s.answered u tag (txt "FAULT_READ") .ok (s.part.faultFields b) ∧ u.part = s.part) ∧
    (∀ c : ChannelNo, ∃ t, exec (.channelRead tag (.val c.val)) s = .next t ∧
      s.answered t tag (txt "CHANNEL_READ") .ok (s.part.channelFields c) ∧ t.part = s.part) ∧
    (∀ n j, 1 ≤ n → n ≤ 255 → s.part.jobNumbered n = some j →
      ∃ t, exec (.jobRead tag (.val n)) s = .next t ∧
        s.answered t tag (txt "JOB_READ") .ok (s.part.jobFields j) ∧ t.part = s.part) ∧
    (∃ t, exec (.jobQueueRead tag) s = .next t ∧ t.part = s.part ∧
      s.answered t tag (txt "JOB_QUEUE_READ") .ok
        [fld "length" (numText s.part.queue.length), fld "peak" (numText s.part.peakQueue),
         fld "queue" (commasOrDash (s.part.queue.map queuedText))]) ∧
    (∀ c : UnitClass, ∃ t, exec (.imageRead tag (.val c)) s = .next t ∧
      s.answered t tag (txt "IMAGE_READ") .ok (s.part.imageFields c) ∧ t.part = s.part) ∧
    (∀ n : IssueNo, ∃ t, exec (.issueRead tag (.val (n.val + 1))) s = .next t ∧
      s.answered t tag (txt "ISSUE_READ") .ok (s.part.issueFields n) ∧ t.part = s.part) ∧
    (∀ q : Param, q ∈ allParams → ∃ t, exec (.get tag (.val (.list [some q]))) s = .next t ∧
      s.answered t tag (txt "GET") .ok [(paramText q, setValueText (s.part.profile.value q))] ∧
      t.part = s.part) ∧
    (∃ t, exec (.get tag (.val .all)) s = .next t ∧ t.part = s.part ∧
      s.answered t tag (txt "GET") .ok
        (allParams.map fun q => (paramText q, setValueText (s.part.profile.value q)))) ∧
    ∃ t, exec (.status tag) s = .next t ∧ s.answered t tag (txt "STATUS") .ok s.part.statusFields ∧
      t.part = s.part

/-- For the commands listed, a number outside the range its rule gives, an absent field and a malformed one
are refused with BADARG, and nothing behind the link changes. That a malformed value counts as one out of
range is the model's reading of R194 (log 6). -/
def Obligations.OperandsOutOfRangeAreRefused : Prop :=
  ∀ (s : State) (tag : Byte), s.takes tag →
    (∀ f : HostField Nat, (f = .absent ∨ f = .bad ∨ ∃ n, f = .val n ∧ (n < 1 ∨ 32 < n)) →
      ∀ p ∈ [(Instr.tourStart tag f, txt "TOUR_START"), (.tourPause tag f, txt "TOUR_PAUSE"),
             (.tourClose tag f, txt "TOUR_CLOSE"), (.tourRead tag f, txt "TOUR_READ")],
        ∃ t, exec p.1 s = .next t ∧ s.answered t tag p.2 .badArg [] ∧ t.part = s.part) ∧
    (∀ f : HostField Nat, (f = .absent ∨ f = .bad ∨ ∃ n, f = .val n ∧ 7 < n) →
      ∀ p ∈ [(Instr.zoneRead tag f, txt "ZONE_READ"), (.zoneSlots tag f, txt "ZONE_SLOTS"),
             (.rackRead tag f, txt "RACK_READ")],
        ∃ t, exec p.1 s = .next t ∧ s.answered t tag p.2 .badArg [] ∧ t.part = s.part) ∧
    (∀ f : HostField Nat, (f = .absent ∨ f = .bad ∨ ∃ n, f = .val n ∧ 3 < n) →
      ∀ p ∈ [(Instr.channelClear tag f, txt "CHANNEL_CLEAR"), (.channelStop tag f, txt "CHANNEL_STOP"),
             (.channelRead tag f, txt "CHANNEL_READ")],
        ∃ t, exec p.1 s = .next t ∧ s.answered t tag p.2 .badArg [] ∧ t.part = s.part) ∧
    (∀ f : HostField Nat, (f = .absent ∨ f = .bad ∨ ∃ n, f = .val n ∧ (n < 1 ∨ 16 < n)) →
      ∀ p ∈ [(Instr.issueCancel tag f, txt "ISSUE_CANCEL"), (.issueRead tag f, txt "ISSUE_READ")],
        ∃ t, exec p.1 s = .next t ∧ s.answered t tag p.2 .badArg [] ∧ t.part = s.part) ∧
    (∀ f : HostField UnitId, (f = .absent ∨ f = .bad ∨ f = .val 0#32 ∨ f = .val 0xFFFFFFFF#32) →
      ∀ p ∈ [(Instr.unitRead tag f, txt "UNIT_READ"), (.unitForget tag f, txt "UNIT_FORGET"),
             (.unitUnassign tag f, txt "UNIT_UNASSIGN"), (.unitLocate tag f, txt "UNIT_LOCATE"),
             (.unitRetire tag f, txt "UNIT_RETIRE"), (.retirePurge tag f, txt "RETIRE_PURGE")],
        ∃ t, exec p.1 s = .next t ∧ s.answered t tag p.2 .badArg [] ∧ t.part = s.part) ∧
    ∀ f : HostField BayName, (f = .absent ∨ f = .bad ∨ ∃ r n, f = .val ⟨r, n⟩ ∧ (7 < r ∨ n < 1 ∨ 24 < n)) →
      ∀ p ∈ [(Instr.bayRead tag f, txt "BAY_READ"), (.bayDisable tag f, txt "BAY_DISABLE"),
             (.bayEnable tag f, txt "BAY_ENABLE"), (.faultClear tag f, txt "FAULT_CLEAR"),
             (.faultRead tag f, txt "FAULT_READ"), (.jobRefresh tag f, txt "JOB_REFRESH")],
        ∃ t, exec p.1 s = .next t ∧ s.answered t tag p.2 .badArg [] ∧ t.part = s.part

/-! ### Tours (R3 to R11) -/

/-- TOUR_OPEN of a FREE tour makes a FORMING tour without sources, raises STATE on it and changes nothing else
behind the link. -/
def Obligations.TourOpenMakesAFormingTour : Prop :=
  ∀ (s : State) (tag : Byte) (k : TourNo) (name : Text) (l : LangNo) (n : Nat), s.takes tag →
    name.length ≤ 16 → 1 ≤ n → n ≤ 250 → s.part.langEnabled l = true → (s.part.tour k).state = .free →
    ∃ t, exec (.tourOpen tag (.val (k.val + 1)) (.val name) (.val (l.val + 1)) (.val n)) s = .next t ∧
      s.answered t tag (txt "TOUR_OPEN") .ok [fld "tour" (tourText k)] ∧
      t.part = (s.part.setTour k ⟨.forming, name, some l, n, 0, []⟩).raise (.tour k) .state

/-- TOUR_START of a FORMING or PAUSED tour that has its floor source makes it LIVE; TOUR_PAUSE of a LIVE tour
makes it PAUSED. Neither changes the tour's other fields, another tour, a unit or anything but zone
records and the pending reports. -/
def Obligations.TourStartAndPauseMoveTheState : Prop :=
  ∀ (s : State) (tag : Byte) (k : TourNo), s.takes tag →
    (((s.part.tour k).state = .forming ∨ (s.part.tour k).state = .paused) →
      (s.part.tour k).hasFloor = true →
      ∃ t, exec (.tourStart tag (.val (k.val + 1))) s = .next t ∧
        s.answered t tag (txt "TOUR_START") .ok [] ∧
        ZoneStep (s.part.setTour k { s.part.tour k with state := .live }) t.part) ∧
    ((s.part.tour k).state = .live →
      ∃ t, exec (.tourPause tag (.val (k.val + 1))) s = .next t ∧
        s.answered t tag (txt "TOUR_PAUSE") .ok [] ∧
        ZoneStep (s.part.setTour k { s.part.tour k with state := .paused }) t.part)

/-- TOUR_CLOSE of a FORMING, LIVE or PAUSED tour ends the RETUNE notices that name it and empties its source
list. With `m` its count less the claims of the reserving ones, it becomes FREE with the FREE values when m
is 0, and CLOSING with the count m otherwise. Every other tour stays, and an entry loses such a notice and
nothing else. A CLOSING tour is left as it is, and of a FREE one the command is refused. Only tours, units,
zone records, frames and the pending reports may change. Stated for a table that lists no unit twice, an
invariant of its own. The name of the reply's field is the model's choice (log 33). -/
def Obligations.TourCloseEndsTheService : Prop :=
  ∀ (s : State) (tag : Byte) (k : TourNo) (m : Nat), s.takes tag → s.part.tableSound →
    m = (s.part.tour k).count - s.part.reservedOn k →
    ((s.part.tour k).state.open = true →
      ∃ t, exec (.tourClose tag (.val (k.val + 1))) s = .next t ∧
        s.answered t tag (txt "TOUR_CLOSE") .ok [fld "state" (txt (if m = 0 then "FREE" else "CLOSING"))] ∧
        t.part.tour k =
          (if m = 0 then Tour.free
           else { s.part.tour k with state := .closing, sources := [], count := m }) ∧
        (∀ j, j ≠ k → t.part.tour j = s.part.tour j) ∧
        (∀ u, t.part.entry u = (s.part.entry u).map fun e =>
          if (s.part.retunesNaming k).contains u = true then { e with notice := none } else e) ∧
        AirStep s.part t.part) ∧
    ((s.part.tour k).state = .closing →
      ∃ t, exec (.tourClose tag (.val (k.val + 1))) s = .next t ∧
        s.answered t tag (txt "TOUR_CLOSE") .ok [fld "state" (txt "CLOSING")] ∧ t.part = s.part) ∧
    ((s.part.tour k).state = .free →
      ∃ t, exec (.tourClose tag (.val (k.val + 1))) s = .next t ∧
        s.answered t tag (txt "TOUR_CLOSE") .state [] ∧ t.part = s.part)

/-- TOUR_CAPACITY sets the capacity, which governs every claim taken after it; it is refused for a FREE tour
and for a capacity below the assigned count. -/
def Obligations.TourCapacityGovernsLaterClaims : Prop :=
  ∀ (s : State) (tag : Byte) (k : TourNo) (n : Nat), s.takes tag →
    (1 ≤ n → n ≤ 250 →
      ((s.part.tour k).state ≠ .free → (s.part.tour k).count ≤ n →
        ∃ t, exec (.tourCapacity tag (.val (k.val + 1)) (.val n)) s = .next t ∧
          s.answered t tag (txt "TOUR_CAPACITY") .ok [fld "capacity" (numText n)] ∧
          t.part = s.part.setTour k { s.part.tour k with capacity := n } ∧
          ∀ l : LangNo, t.part.claimCheck k l =
            (if s.part.langEnabled l = false then some .badArg
             else if (s.part.tour k).state = .closing then some .state
             else if n ≤ (s.part.tour k).count then some .full
             else none)) ∧
      ((s.part.tour k).state = .free ∨ n < (s.part.tour k).count →
        ∃ t, exec (.tourCapacity tag (.val (k.val + 1)) (.val n)) s = .next t ∧
          s.answered t tag (txt "TOUR_CAPACITY") .state [] ∧ t.part = s.part)) ∧
    (n < 1 ∨ 250 < n →
      ∃ t, exec (.tourCapacity tag (.val (k.val + 1)) (.val n)) s = .next t ∧
        s.answered t tag (txt "TOUR_CAPACITY") .badArg [] ∧ t.part = s.part) ∧
    ∀ m, m < 1 ∨ 32 < m →
      ∃ t, exec (.tourCapacity tag (.val m) (.val n)) s = .next t ∧
        s.answered t tag (txt "TOUR_CAPACITY") .badArg [] ∧ t.part = s.part

/-- TOUR_VOICE_ADD appends the pair of language and unit to the tour's sources; beside it only zone records
and the pending reports may change. TOUR_VOICE_DROP takes the pair out of the tour's sources and discards
its stream's frame (R61); beside them only zone records and the pending reports may change. That its reply
writes the unit's id in capitals is the model's choice (log 14). -/
def Obligations.TourVoiceAddAndDropChangeTheSources : Prop :=
  (∀ (s : State) (tag : Byte) (k : TourNo) (l : LangNo) (u : UnitId) (e : Entry), s.takes tag →
    validUnit u = true → s.part.langEnabled l = true → (s.part.tour k).state.open = true →
    s.part.entry u = some e → e.cls = .voice → e.retired = false → e.state ≠ .docked →
    s.part.sourceOf u = none → (s.part.tour k).source l = none → (s.part.tour k).sources.length < 4 →
    ∃ t, exec (.tourVoiceAdd tag (.val (k.val + 1)) (.val (l.val + 1)) (.val u)) s = .next t ∧
      s.answered t tag (txt "TOUR_VOICE_ADD") .ok [] ∧
      ZoneStep (s.part.setTour k
        { s.part.tour k with sources := (s.part.tour k).sources ++ [(l, e.unit)] }) t.part) ∧
  (∀ (s : State) (tag : Byte) (k : TourNo) (l : LangNo) (u : UnitId), s.takes tag →
    (s.part.tour k).state ≠ .free → (s.part.tour k).source l = some u →
    ¬((s.part.tour k).floor = some l ∧ (s.part.tour k).state = .live) →
    ∃ t, exec (.tourVoiceDrop tag (.val (k.val + 1)) (.val (l.val + 1))) s = .next t ∧
      s.answered t tag (txt "TOUR_VOICE_DROP") .ok [fld "unit" (hex8 u)] ∧
      ZoneStep
        { s.part.setTour k
            { s.part.tour k with sources := (s.part.tour k).sources.filter (· != (l, u)) } with
          frames := s.part.frames.discard ⟨k, l⟩ } t.part)

/-! ### Units and notices (R32, R41, R42, R81, R83, R84, R134, R136) -/

/-- UNIT_FORGET of a unit that is not DOCKED frees its place; every other place of the table stays, and only
tours, units, zone records, frames and the pending reports may change. -/
def Obligations.UnitForgetFreesThePlace : Prop :=
  ∀ (s : State) (tag : Byte) (u : UnitId) (i : Nat) (e : Entry), s.takes tag → validUnit u = true →
    s.part.find u = some (i, e) → e.state ≠ .docked →
    ∃ t, exec (.unitForget tag (.val u)) s = .next t ∧
      s.answered t tag (txt "UNIT_FORGET") .ok [fld "index" (numText i)] ∧
      t.part.units = s.part.units.filter (·.2.unit != u) ∧ AirStep s.part t.part

/-- UNIT_UNASSIGN removes the assignment; an entry ON_AIR is sent an UNTUNE notice of the next sequence,
another keeps the notice it has. Every other entry stays. -/
def Obligations.UnitUnassignRemovesTheAssignment : Prop :=
  ∀ (s : State) (tag : Byte) (u : UnitId) (e : Entry), s.takes tag → validUnit u = true →
    s.part.entry u = some e → e.assignment.isSome = true →
    ∃ t d, exec (.unitUnassign tag (.val u)) s = .next t ∧
      s.answered t tag (txt "UNIT_UNASSIGN") .ok [] ∧ t.part.entry u = some d ∧ d.assignment = none ∧
      d.state = e.state ∧ d.zone = e.zone ∧
      (e.state = .onAir → d.notice = some
        ⟨.untune, none, false, e.nextSeq, s.part.now + 1000 * s.part.profile.noticeLife, s.part.now⟩ ∧
        d.nextSeq = e.nextSeq + 1) ∧
      (e.state ≠ .onAir → d.notice = e.notice ∧ d.nextSeq = e.nextSeq) ∧
      (∀ v, v ≠ u → t.part.entry v = s.part.entry v) ∧ AirStep s.part t.part

/-- UNIT_RETUNE of a LISTENER that is not DOCKED and not retired raises a reserving RETUNE notice and makes
the claim it reserves; the assignment stays. Every other entry stays. That the field zones lists its zones
ascending, or - for none, is the model's choice (log 33), and so is that a full queue serves its overflow before
the new notice (log 37). -/
def Obligations.UnitRetuneRaisesAReservingNotice : Prop :=
  ∀ (s : State) (tag : Byte) (u : UnitId) (k : TourNo) (l : LangNo) (e : Entry), s.takes tag →
    validUnit u = true → s.part.entry u = some e → e.cls = .listener → e.state ≠ .docked →
    e.retired = false → s.part.langEnabled l = true → (s.part.tour k).state.open = true →
    s.part.countWithout k e < (s.part.tour k).capacity → s.part.noticeRoom e = true →
    ∃ t d, exec (.unitRetune tag (.val u) (.val (k.val + 1)) (.val (l.val + 1))) s = .next t ∧
      s.answered t tag (txt "UNIT_RETUNE") .ok
        [fld "seq" (numText e.nextSeq.toNat), fld "life" (numText s.part.profile.noticeLife),
         fld "zones" (zonesText (t.part.queuedZones u))] ∧
      t.part.entry u = some d ∧
      d = { e with
        notice := some ⟨.retune, some ⟨k, l⟩, true, e.nextSeq,
          s.part.now + 1000 * s.part.profile.noticeLife, s.part.now⟩
        nextSeq := e.nextSeq + 1 } ∧
      (t.part.tour k).count = s.part.countWithout k e + 1 ∧
      (∀ v, v ≠ u → t.part.entry v = s.part.entry v) ∧ AirStep s.part t.part

/-- UNIT_LOCATE of a unit that is not DOCKED raises a LOCATE notice in place of the notice it has; it is
refused for an invalid id, an unknown unit, a DOCKED unit and a unit for whose notice no queue has room. The
form of the field zones is the model's choice (log 33), and so is that a full queue serves its overflow before
the new notice (log 37). -/
def Obligations.UnitLocateRaisesALocateNotice : Prop :=
  ∀ (s : State) (tag : Byte) (u : UnitId), s.takes tag →
    (validUnit u = false → ∃ t, exec (.unitLocate tag (.val u)) s = .next t ∧
      s.answered t tag (txt "UNIT_LOCATE") .badArg [] ∧ t.part = s.part) ∧
    (validUnit u = true →
      (s.part.entry u = none → ∃ t, exec (.unitLocate tag (.val u)) s = .next t ∧
        s.answered t tag (txt "UNIT_LOCATE") .noSuch [] ∧ t.part = s.part) ∧
      ∀ e, s.part.entry u = some e →
        (e.state = .docked → ∃ t, exec (.unitLocate tag (.val u)) s = .next t ∧
          s.answered t tag (txt "UNIT_LOCATE") .state [] ∧ t.part = s.part) ∧
        (e.state ≠ .docked → s.part.noticeRoom e = false →
          ∃ t, exec (.unitLocate tag (.val u)) s = .next t ∧
            s.answered t tag (txt "UNIT_LOCATE") .full [] ∧ t.part = s.part) ∧
        (e.state ≠ .docked → s.part.noticeRoom e = true →
          ∃ t, exec (.unitLocate tag (.val u)) s = .next t ∧
            s.answered t tag (txt "UNIT_LOCATE") .ok
              [fld "seq" (numText e.nextSeq.toNat), fld "life" (numText s.part.profile.noticeLife),
               fld "zones" (zonesText (t.part.queuedZones u))] ∧
            t.part.entry u = some { e with
              notice := some ⟨.locate, none, false, e.nextSeq,
                s.part.now + 1000 * s.part.profile.noticeLife, s.part.now⟩
              nextSeq := e.nextSeq + 1 } ∧
            (∀ v, v ≠ u → t.part.entry v = s.part.entry v) ∧ AirStep s.part t.part))

/-- UNIT_RETIRE of a unit in the table sets its retired flag, takes the assignment of one not retired before,
and puts its id on the retire list when the list has room; of a unit not in the table it lists the id, is
answered OK when the id is listed, and FULL when the list has no room; that the FULL one changes nothing of the
part, and so raises no report, is the model's choice (log 38). -/
def Obligations.UnitRetireSetsTheFlagAndLists : Prop :=
  ∀ (s : State) (tag : Byte) (u : UnitId), s.takes tag → validUnit u = true →
    (∀ i e, s.part.find u = some (i, e) →
      ∃ t d, exec (.unitRetire tag (.val u)) s = .next t ∧
        s.answered t tag (txt "UNIT_RETIRE") .ok
          [fld "listed" (bit (t.part.retireList.contains u)), fld "index" (numText i)] ∧
        t.part.entry u = some d ∧ d.retired = true ∧ (e.retired = false → d.assignment = none) ∧
        (e.retired = true → d = e) ∧
        t.part.retireList =
          (if s.part.retireList.contains u = true then s.part.retireList
           else if s.part.retireList.length < 1024 then s.part.retireList ++ [u]
           else s.part.retireList) ∧
        RackStep s.part t.part) ∧
    (s.part.find u = none →
      (s.part.retireList.contains u = true → ∃ t, exec (.unitRetire tag (.val u)) s = .next t ∧
        s.answered t tag (txt "UNIT_RETIRE") .ok [fld "listed" (txt "1"), fld "index" (txt "-")] ∧
        t.part = s.part) ∧
      (s.part.retireList.contains u = false → 1024 ≤ s.part.retireList.length →
        ∃ t, exec (.unitRetire tag (.val u)) s = .next t ∧
          s.answered t tag (txt "UNIT_RETIRE") .full [] ∧ t.part = s.part) ∧
      (s.part.retireList.contains u = false → s.part.retireList.length < 1024 →
        ∃ t, exec (.unitRetire tag (.val u)) s = .next t ∧
          s.answered t tag (txt "UNIT_RETIRE") .ok [fld "listed" (txt "1"), fld "index" (txt "-")] ∧
          t.part.retireList = s.part.retireList ++ [u] ∧ t.part.units = s.part.units ∧
          RackStep s.part t.part))

/-- RETIRE_PURGE takes the id off the retire list; the flag of an entry that is not DOCKED clears now, that of
a DOCKED entry at its removal, its bay's release mark being set. -/
def Obligations.RetirePurgeClearsTheFlag : Prop :=
  ∀ (s : State) (tag : Byte) (u : UnitId), s.takes tag → validUnit u = true →
    (s.part.retireList.contains u = true ∨ ∃ e, s.part.entry u = some e ∧ e.retired = true) →
    ∃ t fs, exec (.retirePurge tag (.val u)) s = .next t ∧
      s.answered t tag (txt "RETIRE_PURGE") .ok fs ∧
      t.part.retireList = s.part.retireList.filter (· != u) ∧
      (∀ e, s.part.entry u = some e → e.state ≠ .docked →
        t.part.entry u = some { e with retired := false }) ∧
      (∀ e b, s.part.entry u = some e → e.state = .docked → e.bay = some b →
        t.part.entry u = some e ∧ (t.part.bay b).release = true) ∧
      (∀ v, v ≠ u → t.part.entry v = s.part.entry v) ∧ RackStep s.part t.part

/-- The expiry of a running silence timer makes the entry SILENT without a zone; beside it only zone records
and the pending reports may change. The expiry of a notice's life ends the notice and leaves the
assignment; a reserving RETUNE releases its claim, and a CLOSING tour whose count reaches 0 becomes FREE.
That the time becomes the later of its value and the deadline is the model's choice (log 2). -/
def Obligations.SilenceAndNoticeLifeExpiriesEndTheirTimes : Prop :=
  (∀ (s : State) (u : UnitId) (e : Entry) (d : Millis), s.deaf = false → s.part.entry u = some e →
    e.silence = some d →
    ∃ t, exec (.silenceExpiry u) s = .next t ∧ s.after t ∧
      t.part.entry u = some { e with state := .silent, zone := none, silence := none } ∧
      (∀ v, v ≠ u → t.part.entry v = s.part.entry v) ∧
      ZoneStep { s.part with now := max s.part.now d, units := t.part.units } t.part) ∧
  (∀ (s : State) (u : UnitId) (e : Entry) (n : Notice), s.deaf = false → s.part.entry u = some e →
    e.notice = some n →
    ∃ t, exec (.noticeLifeExpiry u) s = .next t ∧ s.after t ∧
      t.part.entry u = some { e with notice := none } ∧
      (∀ v, v ≠ u → t.part.entry v = s.part.entry v) ∧
      (∀ x, n.reserving = true → n.target = some x →
        t.part.tour x.tour =
          (if (s.part.tour x.tour).state = .closing ∧ (s.part.tour x.tour).count ≤ 1 then Tour.free
           else { s.part.tour x.tour with count := (s.part.tour x.tour).count - 1 }) ∧
        ∀ k, k ≠ x.tour → t.part.tour k = s.part.tour k) ∧
      (n.reserving = false → t.part.tours = s.part.tours) ∧
      AirStep { s.part with now := max s.part.now n.deadline } t.part)

/-! ### Zones and the air (R47, R48, R51, R57, R65, R66, R70) -/

/-- ZONE_STATS_CLEAR sets the peak counters of the zone, or of every zone, to their present values, in every
zone state, and changes nothing else; any other value is refused. -/
def Obligations.ZoneStatsClearSetsThePeaks : Prop :=
  ∀ (s : State) (tag : Byte), s.takes tag →
    (∀ z : ZoneNo, ∃ t, exec (.zoneStatsClear tag (.val (.one z.val))) s = .next t ∧
      s.answered t tag (txt "ZONE_STATS_CLEAR") .ok [] ∧
      t.part = s.part.setZone z
        { s.part.zone z with
          peakSlots := (s.part.zone z).slotsHeld, peakWaiting := (s.part.zone z).waitQueue.length }) ∧
    (∃ t, exec (.zoneStatsClear tag (.val .all)) s = .next t ∧
      s.answered t tag (txt "ZONE_STATS_CLEAR") .ok [] ∧ t.part = { s.part with zones := t.part.zones } ∧
      ∀ z : ZoneNo, t.part.zone z =
        { s.part.zone z with
          peakSlots := (s.part.zone z).slotsHeld, peakWaiting := (s.part.zone z).waitQueue.length }) ∧
    ∀ f : HostField ZoneSel, (f = .absent ∨ f = .bad ∨ ∃ n, f = .val (.one n) ∧ 7 < n) →
      ∃ t, exec (.zoneStatsClear tag f) s = .next t ∧
        s.answered t tag (txt "ZONE_STATS_CLEAR") .badArg [] ∧ t.part = s.part

/-- A HELLO is discarded by a DISABLED zone. It brings a DOWN zone UP, and an UP zone UP again after its
teardown: cycle count 0, the down timer at 250 ms, ZONE_SETUP sent with the label and carrier of the
profile, and after a teardown no plan and no carriage but those of house tracks. -/
def Obligations.HelloBringsAZoneUp : Prop :=
  ∀ (s : State) (z : ZoneNo), s.deaf = false →
    ((s.part.zone z).state = .disabled →
      ∃ t, exec (.zoneHello z) s = .next t ∧ s.after t ∧ ReportStep s.part t.part) ∧
    ((s.part.zone z).state ≠ .disabled →
      ∃ t, exec (.zoneHello z) s = .next t ∧ s.after t ∧ (t.part.zone z).state = .up ∧
        (t.part.zone z).cycleCount = 0 ∧ (t.part.zone z).downTimer = some (s.part.now + 250) ∧
        (t.part.zone z).sent = some (.zoneSetup z s.part.profile.zones[z].label s.part.profile.zones[z].carrier) ∧
        ((s.part.zone z).state = .up → (t.part.zone z).plan = none ∧
          ∀ c ∈ (t.part.zone z).carriages, ∃ k, c.stream = .house k) ∧
        ((s.part.zone z).state = .down → ZoneStep s.part t.part) ∧ AirStep s.part t.part)

/-- A CYCLE_MARK is discarded by a zone that is not UP. Taken by an UP zone it records the cycle number,
restarts the down timer at 250 ms, raises the cycle count by 1 below its maximum, and publishes and sends
a plan of the carriages that held slots before the mark, whose beacon carries the next cycle number and at
most four notices. -/
def Obligations.CycleMarkPublishesThePlan : Prop :=
  ∀ (s : State) (z : ZoneNo) (m : CycleMark), s.deaf = false →
    ((s.part.zone z).state ≠ .up →
      ∃ t, exec (.cycleMark z m) s = .next t ∧ s.after t ∧ ReportStep s.part t.part) ∧
    ((s.part.zone z).state = .up →
      ∃ t plan, exec (.cycleMark z m) s = .next t ∧ s.after t ∧ (t.part.zone z).state = .up ∧
        (t.part.zone z).cycleNumber = m.cycle ∧ (t.part.zone z).downTimer = some (s.part.now + 250) ∧
        ((s.part.zone z).cycleCount < 4294967295 →
          (t.part.zone z).cycleCount = (s.part.zone z).cycleCount + 1) ∧
        (t.part.zone z).plan = some plan ∧ (t.part.zone z).sent = some (.cyclePlan plan) ∧
        plan.beacon.zone = z ∧ plan.beacon.cycle = m.cycle + 1 ∧ plan.beacon.notices.length ≤ 4 ∧
        plan.holders = (s.part.zone z).holders.map fun h => (h.1, h.2.stream))

/-- The expiry of an UP zone's down timer tears the zone down: DOWN, no timer, no carriage, no uplink holder,
no plan, no notice queued, and no unit whose zone it is. Tours and frames stay; beside them only units,
zone records and the pending reports may change. The expiry of a lingering carriage of an UP zone removes
it; beside it only this zone's record and the pending reports may change. That the time becomes the later of
its value and the deadline is the model's choice (log 2), and that LINGER_EXPIRY removes the carriage whatever
linger remains is the model's reading (log 3). -/
def Obligations.DownTimerAndLingerExpiriesFreeTheSlots : Prop :=
  (∀ (s : State) (z : ZoneNo) (d : Millis), s.deaf = false → (s.part.zone z).state = .up →
    (s.part.zone z).downTimer = some d →
    ∃ t, exec (.downTimerExpiry z) s = .next t ∧ s.after t ∧ (t.part.zone z).state = .down ∧
      (t.part.zone z).downTimer = none ∧ (t.part.zone z).carriages = [] ∧ (t.part.zone z).waitQueue = [] ∧
      (t.part.zone z).uplink = Vector.replicate 7 none ∧ (t.part.zone z).plan = none ∧
      (t.part.zone z).noticeQueue = [] ∧ (t.part.zone z).overflow = [] ∧
      (∀ u e, t.part.entry u = some e → e.zone ≠ some z) ∧
      AirStep { s.part with now := max s.part.now d } t.part ∧ t.part.tours = s.part.tours ∧
      t.part.frames = s.part.frames) ∧
  (∀ (s : State) (z : ZoneNo) (st : CarrStream) (c : Carriage), s.deaf = false →
    (s.part.zone z).state = .up → (s.part.zone z).carriage st = some c → c.linger.isSome = true →
    ∃ t, exec (.lingerExpiry z st) s = .next t ∧ s.after t ∧ (t.part.zone z).carriage st = none ∧
      ¬ st ∈ (t.part.zone z).waitQueue ∧ (∀ y, y ≠ z → t.part.zone y = s.part.zone y) ∧
      ZoneStep s.part t.part)

/-! ### House programs (R88 to R90, R93) -/

/-- HOUSE_START of an IDLE record makes it RUNNING over the zone set, with one empty track per language in the
order written and advance due set; beside it only zone records and the pending reports may change.
HOUSE_ZONES of a RUNNING record changes its zone set alone, and HOUSE_STOP makes it IDLE; both are refused
with STATE while it is IDLE. Beside it only zone records and the pending reports may change. That placed and
zones list their zones ascending is the model's choice (log 33). -/
def Obligations.HouseCommandsStartChangeAndStopTheProgram : Prop :=
  (∀ (s : State) (tag : Byte) (zs : List ZoneNo) (ls : List LangNo) (fz : HostField ZoneList) (fl : HostField (List Nat)),
    s.takes tag → zoneSetField fz = some zs → languagesField fl = some ls →
    (∀ l ∈ ls, s.part.langEnabled l = true) → s.part.house.running = false →
    ∃ t, exec (.houseStart tag fz fl) s = .next t ∧
      s.answered t tag (txt "HOUSE_START") .ok
        [fld "tracks" (numText ls.length), fld "placed" (zonesText (s.part.upZones zs))] ∧
      t.part.house = ⟨true, zs, ls.map fun l => ⟨l, [], none, 0, 0, 0, 0⟩, true, some (s.part.now + 40)⟩ ∧
      ZoneStep { s.part with house := t.part.house } t.part) ∧
  (∀ (s : State) (tag : Byte), s.takes tag →
    (s.part.house.running = true →
      (∀ (zs : List ZoneNo) (fz : HostField ZoneList), zoneSetField fz = some zs →
        ∃ t, exec (.houseZones tag fz) s = .next t ∧
          s.answered t tag (txt "HOUSE_ZONES") .ok [fld "zones" (zonesText zs)] ∧
          ZoneStep { s.part with house := { s.part.house with zones := zs } } t.part) ∧
      ∃ t, exec (.houseStop tag) s = .next t ∧ s.answered t tag (txt "HOUSE_STOP") .ok [] ∧
        ZoneStep { s.part with house := ⟨false, [], [], false, none⟩ } t.part) ∧
    (s.part.house.running = false →
      (∀ (zs : List ZoneNo) (fz : HostField ZoneList), zoneSetField fz = some zs →
        ∃ t, exec (.houseZones tag fz) s = .next t ∧
          s.answered t tag (txt "HOUSE_ZONES") .state [] ∧ t.part = s.part) ∧
      ∃ t, exec (.houseStop tag) s = .next t ∧ s.answered t tag (txt "HOUSE_STOP") .state [] ∧
        t.part = s.part))

/-- Each elapse of the house period timer sets advance due and starts the next period of 40 ms. That the time
becomes the later of its value and the deadline is the model's choice (log 2). -/
def Obligations.HousePeriodElapseSetsAdvanceDue : Prop :=
  ∀ (s : State) (d : Millis), s.deaf = false → s.part.house.period = some d →
    ∃ t, exec .housePeriodElapse s = .next t ∧ s.after t ∧
      ReportStep
        { s.part with
          now := max s.part.now d
          house := { s.part.house with advanceDue := true, period := some (d + 40) } } t.part

/-! ### Racks and bays (R98 to R105, R107, R117, R118, R124, R131, R141, R146, R147) -/

/-- A bay's state follows from its rack's state, its enable and its occupant. -/
def Obligations.BayStateFollowsRackEnableAndOccupant : Prop :=
  ∀ (p : Machine.Part) (b : BayRef),
    ((p.rack b.rack).state ≠ .online → p.bayState b = .unreachable) ∧
    ((p.rack b.rack).state = .online → (p.bay b).enable = false → p.bayState b = .disabled) ∧
    ((p.rack b.rack).state = .online → (p.bay b).enable = true → (p.bay b).occupant.isSome = true →
      p.bayState b = .occupied) ∧
    ((p.rack b.rack).state = .online → (p.bay b).enable = true → (p.bay b).occupant = none →
      p.bayState b = .empty)

/-- A bay's display is the first row of the display table that holds. -/
def Obligations.DisplayIsTheFirstRowThatHolds : Prop :=
  ∀ (p : Machine.Part) (b : BayRef),
    p.displayOf b =
      (if p.bayState b ≠ .occupied then ⟨.dark, 0⟩
       else if (p.bay b).pickMark = true then ⟨.pick, 5⟩
       else if (p.bay b).fault ≠ none then ⟨.fault, 1⟩
       else if (p.occupantEntry b).map (·.retired) = some true then ⟨.retired, 1⟩
       else if (p.bay b).session = .charging ∧
           (p.bay b).telemetry.any (fun t => decide (t.level ≤ p.profile.alarm)) = true then
         ⟨.chargeAlarm, p.levelCount b⟩
       else if (p.bay b).session = .charging then ⟨.charging, p.levelCount b⟩
       else if (p.bay b).session = .topped then
         match (p.rack b.rack).showState with
         | .ramp step _ => ⟨.show, min step (p.levelCount b)⟩
         | .hold _ => ⟨.show, p.levelCount b⟩
         | .idle => ⟨.dark, 0⟩
       else ⟨.dark, 0⟩)

/-- BAY_DISABLE of a present bay without a bound job or an issue turns its enable off and ends its session; of
a DISABLED bay it changes nothing; an absent bay and one in use are refused. BAY_ENABLE of a present bay
resets its strikes and turns its enable on. An enabled bay keeps its session; a bay that was off and whose
ONLINE rack records an occupant starts one. -/
def Obligations.BayDisableAndEnableTurnTheEnable : Prop :=
  (∀ (s : State) (tag : Byte) (b : BayRef), s.takes tag →
    (s.part.present b = false →
      ∃ t, exec (.bayDisable tag (.val ⟨b.rack.val, b.no.val + 1⟩)) s = .next t ∧
        s.answered t tag (txt "BAY_DISABLE") .noSuch [] ∧ t.part = s.part) ∧
    (s.part.present b = true → ((s.part.bay b).job.isSome || s.part.issueNamesBay b) = true →
      ∃ t, exec (.bayDisable tag (.val ⟨b.rack.val, b.no.val + 1⟩)) s = .next t ∧
        s.answered t tag (txt "BAY_DISABLE") .inUse [] ∧ t.part = s.part) ∧
    (s.part.present b = true → ((s.part.bay b).job.isSome || s.part.issueNamesBay b) = false →
      ∃ t, exec (.bayDisable tag (.val ⟨b.rack.val, b.no.val + 1⟩)) s = .next t ∧
        s.answered t tag (txt "BAY_DISABLE") .ok [] ∧ (t.part.bay b).enable = false ∧
        ((s.part.bay b).enable = false → t.part = s.part) ∧
        ((s.part.bay b).enable = true → (t.part.bay b).session = .none ∧ (t.part.bay b).watch = none ∧
          (t.part.bay b).identified = false ∧ RackStep s.part t.part))) ∧
  (∀ (s : State) (tag : Byte) (b : BayRef), s.takes tag → s.part.present b = true →
    ∃ t, exec (.bayEnable tag (.val ⟨b.rack.val, b.no.val + 1⟩)) s = .next t ∧
      s.answered t tag (txt "BAY_ENABLE") .ok [] ∧ (t.part.bay b).enable = true ∧
      (t.part.bay b).strikes = 0 ∧ (t.part.bay b).occupant = (s.part.bay b).occupant ∧
      (t.part.bay b).fault = (s.part.bay b).fault ∧
      ((s.part.bay b).enable = true → (t.part.bay b).session = (s.part.bay b).session) ∧
      ((s.part.bay b).enable = false → (s.part.rack b.rack).state = .online →
        (s.part.bay b).occupant.isSome = true →
        (t.part.bay b).session =
          (if (s.part.bay b).fault.isSome = true then .halted
           else if (s.part.occupantEntry b).map (·.retired) = some true then .halted
           else .charging)) ∧
      (∀ d, d ≠ b → (t.part.bay d).still = (s.part.bay d).still) ∧ RackStep s.part t.part)

/-- FAULT_CLEAR of a bay that holds a fault record clears it, and starts a session where the rack is ONLINE,
the bay enabled and an occupant recorded; strikes, release mark and every unit stay. -/
def Obligations.FaultClearClearsTheRecord : Prop :=
  ∀ (s : State) (tag : Byte) (b : BayRef), s.takes tag → s.part.present b = true →
    (s.part.bay b).fault.isSome = true →
    ∃ t, exec (.faultClear tag (.val ⟨b.rack.val, b.no.val + 1⟩)) s = .next t ∧
      s.answered t tag (txt "FAULT_CLEAR") .ok [fld "session" (sessionText (t.part.bay b).session)] ∧
      (t.part.bay b).fault = none ∧ (t.part.bay b).strikes = (s.part.bay b).strikes ∧
      (t.part.bay b).release = (s.part.bay b).release ∧ t.part.units = s.part.units ∧
      (¬((s.part.rack b.rack).state = .online ∧ (s.part.bay b).enable = true ∧
          (s.part.bay b).occupant.isSome = true) →
        (t.part.bay b).session = (s.part.bay b).session) ∧
      ((s.part.rack b.rack).state = .online → (s.part.bay b).enable = true →
        (s.part.bay b).occupant.isSome = true →
        (t.part.bay b).session =
          (if (s.part.occupantEntry b).map (·.retired) = some true then .halted else .charging)) ∧
      (∀ d, d ≠ b → (t.part.bay d).still = (s.part.bay d).still) ∧ RackStep s.part t.part

/-- An elapse of a rack's poll timer sets its poll due, or finds it set and leaves it, unless the free bus
gives the rack its turn at once; the timer starts again at 100 ms. An unanswered poll turn raises missed
by 1. At 5 an ONLINE rack is torn down and an ATTACHING one returns to OFFLINE, both with missed 0; an
OFFLINE rack is unchanged. That an
elapse takes place at the later of the time and its deadline is the model's choice (log 2). -/
def Obligations.PollTimerAndUnansweredPolls : Prop :=
  (∀ (s : State) (r : RackNo) (d : Millis), s.deaf = false → (s.part.rack r).pollTimer = some d →
    ∃ t, exec (.pollTimerElapse r) s = .next t ∧ s.after t ∧
      (t.part.rack r).pollTimer = some (d + 100) ∧
      ((t.part.rack r).pollDue.isSome = true ∨ ∃ m x, t.part.bus.turn = some (.poll r m, x)) ∧
      EngineStep (s.part.pollElapse r) t.part) ∧
  (∀ (s : State) (r : RackNo) (m : PollMessage) (x : Millis), s.deaf = false →
    s.part.bus.turn = some (.poll r m, x) →
    ∃ t, exec .busTurnTimeout s = .next t ∧ s.after t ∧
      (((s.part.rack r).state = .online ∨ (s.part.rack r).state = .attaching) →
        ((s.part.rack r).missed + 1 < 5 → (t.part.rack r).state = (s.part.rack r).state ∧
          (t.part.rack r).missed = (s.part.rack r).missed + 1) ∧
        (5 ≤ (s.part.rack r).missed + 1 → (t.part.rack r).state = .offline ∧
          (t.part.rack r).missed = 0 ∧ (t.part.rack r).step = none)) ∧
      (((s.part.rack r).state = .offline ∨ (s.part.rack r).state = .disabled) →
        (t.part.rack r).state = (s.part.rack r).state ∧ (t.part.rack r).missed = (s.part.rack r).missed))

/-- A dock turn that ends, by DOCK_ACCEPT from the module of its rack or by the 8 ms limit, tells the engine
that the request has gone out: the channel keeps its job, the transaction's no-answer limit runs, 1 s for
BLOCK_ERASE and 300 ms for any other, and no turn of the channel is left; the first erase of a REFRESH makes
the unit's firmware INCOMPLETE. When the limit of a transaction's first or second attempt passes, it becomes
the channel's waiting request again with its serial and one attempt more, and may have the turn at once,
unless its REFRESH is parked for an URGENT job. When that of the third passes, MUTE occurs on the bay, and the
job ends FAILED UNIT_MUTE as the bay's last job, no other job being bound to that bay. That the turn's limit
and the no-answer limit pass at the later of the time and their deadline is the model's choice (log 2), and
that attempts is 1 from the preparation its reading (log 13). Stated for sound jobs, an invariant of its
own. -/
def Obligations.DockTurnsAndNoAnswerLimitsMoveTheTransaction : Prop :=
  (∀ (s : State) (c : ChannelNo) (j : Job) (b : BayRef) (serial : Byte) (a : Option Nat) (k : Dock) (x : Millis)
    (w : Transaction), s.deaf = false → s.part.jobsSound →
    s.part.bus.turn = some (.dock c b serial a k, x) → (s.part.channel c).active = some j →
    (s.part.channel c).tx = some w → w.serial = serial → w.status = .inTurn →
    (∃ t, exec (.dockAccept b.rack) s = .next t ∧ s.after t ∧ TurnEnded s.part t.part c j w s.part.now) ∧
    ∃ t, exec .busTurnTimeout s = .next t ∧ s.after t ∧
      TurnEnded s.part t.part c j w (max s.part.now (x + 8))) ∧
  (∀ (s : State) (c : ChannelNo) (j : Job) (w : Transaction) (d : Millis), s.deaf = false → s.part.jobsSound →
    (s.part.channel c).active = some j → (s.part.channel c).tx = some w → w.status = .out d →
    (w.attempts < 3 →
      ∃ t, exec (.dockNoAnswerLimit c) s = .next t ∧ s.after t ∧
        ((t.part.channel c).active = some j ∧
          ((t.part.channel c).tx = some { w with status := .waiting, attempts := w.attempts + 1 } ∨
           (t.part.channel c).tx = some { w with status := .inTurn, attempts := w.attempts + 1 } ∧
            t.part.bus.turn = some (.dock c j.bay w.serial w.addr w.dock, max s.part.now d)) ∨
         (s.part.channel c).mayYield = true ∧ s.part.urgentQueued = true ∧
          (t.part.channel c).parked = some j) ∧
        EngineStep { s.part with now := max s.part.now d } t.part) ∧
    (3 ≤ w.attempts → (s.part.bay j.bay).occupant.isSome = true →
      ∃ t f, exec (.dockNoAnswerLimit c) s = .next t ∧ s.after t ∧
        (t.part.bay j.bay).fault = some f ∧ FaultClass.mute ∈ f.classes ∧
        ((∀ i ∈ s.part.jobs, i.bay = j.bay → i.number = j.number) →
          (t.part.bay j.bay).lastJob = some ⟨j.number, j.work.kind, .failed .unitMute⟩ ∧
          (t.part.bay j.bay).job = none ∧ ∀ i ∈ t.part.jobs, i.bay ≠ j.bay) ∧
        RackStep { s.part with now := max s.part.now d } t.part))

/-- A HELLO answering the rack's poll turn: a bay count of 8 to 24 makes the rack ATTACHING at step SETUP with
the count offered; another count leaves it OFFLINE; a DISABLED rack stays so, the model's choice (log 42).
SETUP_DONE answering RACK_SETUP moves the attach step to SURVEY, and a SURVEY_ANSWER of the offered count of bays
brings the rack ONLINE with that bay count; where no unit is surveyed in two bays, each bay then records the valid
unit surveyed in it, or none. -/
def Obligations.HelloSetupAndSurveyAttachARack : Prop :=
  (∀ (s : State) (r : RackNo) (n v : Nat) (m : PollMessage) (x : Millis), s.deaf = false →
    s.part.bus.turn = some (.poll r m, x) →
    ∃ t, exec (.rackHello r n v) s = .next t ∧ s.after t ∧
      ((s.part.rack r).state = .disabled → (t.part.rack r).state = .disabled) ∧
      ((s.part.rack r).state ≠ .disabled → 8 ≤ n → n ≤ 24 →
        (t.part.rack r).state = .attaching ∧ (t.part.rack r).step = some .setup ∧
        (t.part.rack r).offered = some n ∧ (t.part.rack r).revision = some v ∧ (t.part.rack r).missed = 0) ∧
      ((s.part.rack r).state ≠ .disabled → n < 8 ∨ 24 < n →
        (t.part.rack r).state = .offline ∧ (t.part.rack r).step = none ∧ (t.part.rack r).offered = none)) ∧
  (∀ (s : State) (r : RackNo) (x : Millis), s.deaf = false → (s.part.rack r).state = .attaching →
    (∀ w, s.part.bus.turn = some (.poll r (.rackSetup w), x) → (s.part.rack r).step = some .setup →
      ∃ t, exec (.setupDone r) s = .next t ∧ s.after t ∧ (t.part.rack r).state = .attaching ∧
        (t.part.rack r).step = some .survey ∧ (t.part.rack r).missed = 0 ∧
        (t.part.rack r).offered = (s.part.rack r).offered) ∧
    ∀ seen, s.part.bus.turn = some (.poll r .survey, x) → (s.part.rack r).step = some .survey →
      (s.part.rack r).offered = some seen.length →
      ∃ t, exec (.surveyAnswer r seen) s = .next t ∧ s.after t ∧ (t.part.rack r).state = .online ∧
        (t.part.rack r).step = none ∧ (t.part.rack r).offered = none ∧
        (t.part.rack r).bayCount = some seen.length ∧ (t.part.rack r).missed = 0 ∧
        ((∀ (i k : Nat) (y z : UnitId × UnitClass), seen[i]? = some (some y) → seen[k]? = some (some z) →
            y.1 = z.1 → i = k) →
          ∀ b : BayNo, b.val < seen.length → (t.part.bay ⟨r, b⟩).occupant.map (·.unit) =
            (seen[b.val]?.join.bind fun y => if validUnit y.1 = true then some y.1 else none)))

/-- A POLL_ANSWER of an ONLINE rack's POLL sets missed to 0 and keeps the rack ONLINE; a seat it carries
records the unit in the bay, an unseat leaves the bay without occupant and session, and a BUTTON starts or
restarts the show period. -/
def Obligations.PollAnswerTakesTheModulesEvents : Prop :=
  ∀ (s : State) (r : RackNo) (b : BayNo) (c : List (BayNo × Bool)) (d : List (BayNo × Display))
    (o : Option RackSetup) (x : Millis), s.deaf = false → (s.part.rack r).state = .online →
    s.part.bus.turn = some (.poll r (.poll c d o), x) → s.part.present ⟨r, b⟩ = true →
    (∃ t, exec (.pollAnswer r []) s = .next t ∧ s.after t ∧ (t.part.rack r).state = .online ∧
      (t.part.rack r).missed = 0 ∧ EngineStep (s.part.pollAnswered r (.poll c d o)) t.part) ∧
    (∀ u cls, validUnit u = true → ((s.part.bay ⟨r, b⟩).occupant.map (·.unit)) ≠ some u →
      ∃ t, exec (.pollAnswer r [.seat (b.val + 1) u cls]) s = .next t ∧ s.after t ∧
        (t.part.rack r).state = .online ∧ (t.part.rack r).missed = 0 ∧
        ((t.part.bay ⟨r, b⟩).occupant.map (·.unit)) = some u ∧ (t.part.bay ⟨r, b⟩).telemetry = none ∧
        RackStep (s.part.pollAnswered r (.poll c d o)) t.part) ∧
    ((s.part.bay ⟨r, b⟩).occupant.isSome = true →
      ∃ t, exec (.pollAnswer r [.unseat (b.val + 1)]) s = .next t ∧ s.after t ∧
        (t.part.rack r).state = .online ∧ (t.part.rack r).missed = 0 ∧
        (t.part.bay ⟨r, b⟩).occupant = none ∧ (t.part.bay ⟨r, b⟩).session = .none ∧
        RackStep (s.part.pollAnswered r (.poll c d o)) t.part) ∧
    ∃ t, exec (.pollAnswer r [.button]) s = .next t ∧ s.after t ∧
      (t.part.rack r).state = .online ∧ (t.part.rack r).missed = 0 ∧
      (t.part.rack r).showState =
        (if (s.part.rack r).showState = .idle ∧ 0 < s.part.profile.rampDelay then
          .ramp 1 (s.part.now + s.part.profile.rampDelay)
         else .hold (s.part.now + 1000 * s.part.profile.hold)) ∧
      RackStep (s.part.pollAnswered r (.poll c d o)) t.part

/-- Each elapse of the ramp timer raises the step by 1 and starts the timer again, until step 5 makes the show
state HOLD; the elapse of the hold timer makes it IDLE. That the time becomes the later of its value and the
deadline, from which the next deadline counts, is the model's choice (log 2). -/
def Obligations.ShowTimersMoveTheShowState : Prop :=
  ∀ (s : State) (r : RackNo), s.deaf = false →
    (∀ step d, (s.part.rack r).showState = .ramp step d →
      ∃ t, exec (.rampTimerElapse r) s = .next t ∧ s.after t ∧
        (t.part.rack r).showState =
          (if step + 1 < 5 then .ramp (step + 1) (max s.part.now d + s.part.profile.rampDelay)
           else .hold (max s.part.now d + 1000 * s.part.profile.hold)) ∧
        (∀ b, (t.part.bay b).still = (s.part.bay b).still) ∧
        RackStep { s.part with now := max s.part.now d } t.part) ∧
    ∀ d, (s.part.rack r).showState = .hold d →
      ∃ t, exec (.holdTimerElapse r) s = .next t ∧ s.after t ∧ (t.part.rack r).showState = .idle ∧
        (∀ b, (t.part.bay b).still = (s.part.bay b).still) ∧
        RackStep { s.part with now := max s.part.now d } t.part

/-- When the charge watch of a CHARGING bay runs out SLOW occurs: the bay's fault record holds it and the
session is HALTED. In any other session the expiry stops the watch and raises no fault; R124 lets no run
reach such a state, and the clause is the model's own. That the time becomes the later of its value and the
deadline is the model's choice (log 2). -/
def Obligations.ChargeWatchExpiryRaisesSlow : Prop :=
  ∀ (s : State) (b : BayRef) (d : Millis), s.deaf = false → (s.part.bay b).watch = some d →
    ((s.part.bay b).session = .charging → (s.part.bay b).occupant.isSome = true →
      ∃ t f, exec (.chargeWatchExpiry b) s = .next t ∧ s.after t ∧ (t.part.bay b).fault = some f ∧
        FaultClass.slow ∈ f.classes ∧ (t.part.bay b).session = .halted ∧ (t.part.bay b).watch = none ∧
        RackStep { s.part with now := max s.part.now d } t.part) ∧
    ((s.part.bay b).session ≠ .charging →
      ∃ t, exec (.chargeWatchExpiry b) s = .next t ∧ s.after t ∧ (t.part.bay b).watch = none ∧
        (t.part.bay b).fault = (s.part.bay b).fault ∧ (t.part.bay b).session = (s.part.bay b).session ∧
        RackStep { s.part with now := max s.part.now d } t.part)

/-! ### Provisioning (R149, R158, R161, R169 to R175) -/

/-- CHANNEL_CLEAR is refused with STATE unless the channel is LOCKED; carried out, the reply shows the
channel's state and no tour, unit, zone, issue record, session or fault record changes. With no job parked or
queued and no bay with work the channel becomes IDLE; a parked REFRESH whose next page passes the area check,
or whose pages are all programmed, resumes on it where no URGENT job waits. CHANNEL_STOP answers with the
numbers of the channel's jobs, the parked one first (the model's choice, log 33); the bay of each shows it as its
last job, ABORTED STOPPED, and none of them is left: a job of such a number is one queued by the event itself, and
where no bay has work there is none. With no job queued either, the channel is IDLE without a job or a transaction. That the event's own new work
may take the number of a job it ended is the model's choice (log 36). Stated for sound jobs, an invariant of
its own. -/
def Obligations.ChannelClearAndStopFreeTheChannel : Prop :=
  (∀ (s : State) (tag : Byte) (c : ChannelNo), s.takes tag →
    ((s.part.channel c).state ≠ .locked → ∃ t, exec (.channelClear tag (.val c.val)) s = .next t ∧
      s.answered t tag (txt "CHANNEL_CLEAR") .state [] ∧ t.part = s.part) ∧
    ((s.part.channel c).state = .locked → ∃ t, exec (.channelClear tag (.val c.val)) s = .next t ∧
      s.answered t tag (txt "CHANNEL_CLEAR") .ok
        [fld "state" (channelStateText (t.part.channel c).state)] ∧
      EngineStep s.part t.part ∧
      ((s.part.channel c).active = none → (∀ d, (s.part.channel d).parked = none) → s.part.queue = [] →
        s.part.noWork → (t.part.channel c).state = .idle) ∧
      (∀ j cls i, s.part.jobsSound → (s.part.channel c).parked = some j → j.work = .refresh cls →
        j.ident = some i → s.part.urgentQueued = false →
        (j.total ≤ j.progress ∨
          areaCheck i (some .firmware) (.pageProgram []) ((i.fwBase + j.progress) * 256) = none) →
        (t.part.channel c).state = .running ∧ (t.part.channel c).parked = none ∧
        (t.part.channel c).active = some { j with
          phase := if j.progress < j.total then some .program else some .check } ∧
        (t.part.channel c).tx.isSome = true))) ∧
  (∀ (s : State) (tag : Byte) (c : ChannelNo), s.takes tag → s.part.jobsSound →
    ∃ t, exec (.channelStop tag (.val c.val)) s = .next t ∧
      s.answered t tag (txt "CHANNEL_STOP") .ok
        [fld "stopped" (commasOrDash ((s.part.channel c).jobs.map fun j => numText j.number))] ∧
      (∀ j, (s.part.channel c).active = some j →
        (t.part.bay j.bay).lastJob = some ⟨j.number, j.work.kind, .aborted .stopped⟩) ∧
      (∀ j, (s.part.channel c).parked = some j →
        (∀ i, (s.part.channel c).active = some i → i.bay ≠ j.bay) →
        (t.part.bay j.bay).lastJob = some ⟨j.number, j.work.kind, .aborted .stopped⟩) ∧
      (∀ j ∈ (s.part.channel c).jobs, ∀ i ∈ t.part.jobs, i.number = j.number →
        i.started = none ∨ i.started = some s.part.now ∧ i.phase = some .ident) ∧
      (s.part.noWork → ∀ j ∈ (s.part.channel c).jobs,
        (t.part.bay j.bay).job = none ∧ ∀ i ∈ t.part.jobs, i.number ≠ j.number) ∧
      (s.part.noWork → s.part.queue = [] →
        (t.part.channel c).state = .idle ∧ (t.part.channel c).active = none ∧
        (t.part.channel c).parked = none ∧ (t.part.channel c).tx = none) ∧
      RackStep s.part t.part)

/-- JOB_MAINT and JOB_REFRESH of an OCCUPIED bay with a listed occupant, no bound job, a channel that is not
LOCKED and room in the queue queue a job of the next number, which is answered, bound to the bay and held by
a job of that bay, unit and work, in the queue or on a channel; JOB_REFRESH takes the refresh hold and the
REFRESH need of the bay away. JOB_CANCEL of a QUEUED job ends it ABORTED CANCELLED: the bay's last job shows
it, and where no bay has work no job of its number is left. A number out of range, one no job holds and one
of a job that is not QUEUED are refused. JOB_STATS_CLEAR sets the peak queue length to the present length and
changes nothing else. That the event's own new work may take the number of a job it ended is the model's
choice (log 36). Stated for sound jobs, an invariant of its own. -/
def Obligations.JobCommandsServeTheQueue : Prop :=
  (∀ (s : State) (tag : Byte) (b : BayRef) (u : UnitId), s.takes tag → s.part.jobsSound →
    s.part.present b = true → s.part.bayState b = .occupied → s.part.listedIn b = some u →
    (s.part.bay b).job = none → s.part.allLocked = false → s.part.queue.length < 32 →
    (∀ op area addr count data w, maintWork op area addr count data = some w →
      ∃ t, exec (.jobMaint tag (.val ⟨b.rack.val, b.no.val + 1⟩) op area addr count data) s = .next t ∧
        s.answered t tag (txt "JOB_MAINT") .ok [fld "job" (numText s.part.nextNumber)] ∧
        (t.part.bay b).job = some s.part.nextNumber ∧
        (∃ k ∈ t.part.jobs, k.number = s.part.nextNumber ∧ k.bay = b ∧ k.unit = u ∧ k.work = w) ∧
        EngineStep s.part t.part) ∧
    ∀ e, s.part.entry u = some e → (s.part.bay b).fault = none → e.retired = false →
      (s.part.slot e.cls).isSealed = true →
      ∃ t, exec (.jobRefresh tag (.val ⟨b.rack.val, b.no.val + 1⟩)) s = .next t ∧
        s.answered t tag (txt "JOB_REFRESH") .ok [fld "job" (numText s.part.nextNumber)] ∧
        (t.part.bay b).job = some s.part.nextNumber ∧ (t.part.bay b).refreshHold = false ∧
        (t.part.bay b).needRefresh = false ∧
        (∃ k ∈ t.part.jobs, k.number = s.part.nextNumber ∧ k.bay = b ∧ k.unit = u ∧
          k.work = .refresh e.cls) ∧
        EngineStep s.part t.part) ∧
  (∀ (s : State) (tag : Byte) (n : Nat), s.takes tag →
    (n < 1 ∨ 255 < n → ∃ t, exec (.jobCancel tag (.val n)) s = .next t ∧
      s.answered t tag (txt "JOB_CANCEL") .badArg [] ∧ t.part = s.part) ∧
    (1 ≤ n → n ≤ 255 →
      (s.part.jobNumbered n = none → ∃ t, exec (.jobCancel tag (.val n)) s = .next t ∧
        s.answered t tag (txt "JOB_CANCEL") .noSuch [] ∧ t.part = s.part) ∧
      ∀ j, s.part.jobNumbered n = some j →
        ((∀ q ∈ s.part.queue, q.number ≠ n) → ∃ t, exec (.jobCancel tag (.val n)) s = .next t ∧
          s.answered t tag (txt "JOB_CANCEL") .state [] ∧ t.part = s.part) ∧
        ((∃ q ∈ s.part.queue, q.number = n) → s.part.jobsSound →
          ∃ t, exec (.jobCancel tag (.val n)) s = .next t ∧
            s.answered t tag (txt "JOB_CANCEL") .ok [] ∧
            (t.part.bay j.bay).lastJob = some ⟨n, j.work.kind, .aborted .cancelled⟩ ∧
            (s.part.noWork → (t.part.bay j.bay).job = none ∧ ∀ i ∈ t.part.jobs, i.number ≠ n) ∧
            RackStep s.part t.part))) ∧
  (∀ (s : State) (tag : Byte), s.takes tag →
    ∃ t, exec (.jobStatsClear tag) s = .next t ∧ s.answered t tag (txt "JOB_STATS_CLEAR") .ok [] ∧
      t.part = { s.part with peakQueue := s.part.queue.length })

/-- The other events of a POLL_ANSWER of an ONLINE rack. A BOUNCE in a session that charges or is topped raises the
bounces by 1, and at 3 CONTACT occurs: a strike, which at the strike limit disables the bay, and the session is
HALTED or ended. A TERMINATED in a CHARGING session makes it TOPPED with no strikes and charging ordered off. A
TELEMETRY with a level above 100, or of a bay without occupant, is dropped; any other is recorded with the
level of a listed unit, and in a session that charges or is topped HOT, OVERVOLT and WEAKCELL occur as it
shows, which HALT the session; where none does, the charge rule moves the session. A DOCK_ANSWER that does not
match its channel's transaction in bay and serial is discarded; NOT_BLANK, VERIFY_FAIL and REFUSED end the job
FAILED with that reason and no fault; DONE completes the transaction: the ident of an IDENTIFY is taken into
the unit's entry, a TUNE sets tuned, and a REFRESH goes from block to block, to its first page, from page to
page, and to the area check; the check value of the slot brings it to its COMMIT, whose DONE ends it, and
another ends it FAILED VERIFY_FAIL with the refresh hold set. A MAINT_READ takes the page into the staging page and
goes from page to page, a MAINT_ERASE from block to block, each until its count is done or its next address fails
the area check, which locks the channel and ends it FAILED VIOLATION; a MAINT_WRITE ends at its one page. That the
engine acts after the event's own effect, in the same step, is the model's reading (log 10), and so is that a
transaction's attempts are 1 from its preparation (log 13). Stated for sound jobs where jobs are concerned, an
invariant of its own. -/
def Obligations.PollAnswerTakesMeasurementsAndDockAnswers : Prop :=
  ∀ (s : State) (r : RackNo) (n : BayNo) (b : BayRef) (cs : List (BayNo × Bool)) (ds : List (BayNo × Display))
    (o : Option RackSetup) (x : Millis), s.deaf = false → (s.part.rack r).state = .online →
    s.part.bus.turn = some (.poll r (.poll cs ds o), x) → s.part.present ⟨r, n⟩ = true → b = ⟨r, n⟩ →
    (∃ t, exec (.pollAnswer r [.bounce (n.val + 1)]) s = .next t ∧ s.after t ∧
      RackStep (s.part.pollAnswered r (.poll cs ds o)) t.part ∧
      (((s.part.bay b).occupant = none ∨ (s.part.bay b).session.active = false) →
        (t.part.bay b).bounces = (s.part.bay b).bounces ∧ (t.part.bay b).fault = (s.part.bay b).fault ∧
        (t.part.bay b).session = (s.part.bay b).session) ∧
      ((s.part.bay b).occupant.isSome = true → (s.part.bay b).session.active = true →
        (t.part.bay b).bounces = (s.part.bay b).bounces + 1 ∧
        ((s.part.bay b).bounces + 1 ≠ 3 → (t.part.bay b).fault = (s.part.bay b).fault ∧
          (t.part.bay b).session = (s.part.bay b).session) ∧
        ((s.part.bay b).bounces + 1 = 3 → (t.part.bay b).strikes = min ((s.part.bay b).strikes + 1) 10 ∧
          (∃ f, (t.part.bay b).fault = some f ∧ FaultClass.contact ∈ f.classes) ∧
          (t.part.bay b).enable = ((s.part.bay b).enable &&
            decide (min ((s.part.bay b).strikes + 1) 10 < s.part.profile.strikeLimit)) ∧
          (t.part.bay b).session =
            (if s.part.profile.strikeLimit ≤ min ((s.part.bay b).strikes + 1) 10 ∧ (s.part.bay b).enable = true
             then .none else .halted)))) ∧
    (∃ t, exec (.pollAnswer r [.terminated (n.val + 1)]) s = .next t ∧ s.after t ∧
      RackStep (s.part.pollAnswered r (.poll cs ds o)) t.part ∧
      ((s.part.bay b).session ≠ .charging → (t.part.bay b).session = (s.part.bay b).session ∧
        (t.part.bay b).strikes = (s.part.bay b).strikes ∧ (t.part.bay b).watch = (s.part.bay b).watch) ∧
      ((s.part.bay b).session = .charging → (t.part.bay b).session = .topped ∧ (t.part.bay b).strikes = 0 ∧
        (t.part.bay b).watch = none ∧ (t.part.bay b).chargeOrder.map (·.value) = some false)) ∧
    (∀ (mv : Nat) (ma temp : Int) (level : Nat) (hot high weak : Prop),
      (hot ↔ (s.part.profile.hotLimit : Int) < temp) → (high ↔ s.part.profile.voltLimit < mv) →
      (weak ↔ ∃ m st l, (s.part.bay b).weak = .pending m ∧ (s.part.bay b).sessionStart = some st ∧
        60000 * m ≤ s.part.now - st ∧ (s.part.bay b).startLevel = some l ∧
        level < l + s.part.profile.weakGain) →
      ∃ t, exec (.pollAnswer r [.telemetry (n.val + 1) mv ma temp level]) s = .next t ∧ s.after t ∧
        RackStep (s.part.pollAnswered r (.poll cs ds o)) t.part ∧
        (((s.part.bay b).occupant = none ∨ 100 < level) →
          (t.part.bay b).telemetry = (s.part.bay b).telemetry ∧
          (t.part.bay b).session = (s.part.bay b).session ∧ (t.part.bay b).fault = (s.part.bay b).fault ∧
          t.part.units = s.part.units) ∧
        (∀ y, (s.part.bay b).occupant = some y → level ≤ 100 →
          (t.part.bay b).telemetry = some ⟨mv, ma, temp, level⟩ ∧
          (y.listed = true → ∀ e, s.part.entry y.unit = some e →
            ∃ e', t.part.entry y.unit = some e' ∧ e'.level = level) ∧
          ((s.part.bay b).session.active = false → (t.part.bay b).session = (s.part.bay b).session ∧
            (t.part.bay b).fault = (s.part.bay b).fault) ∧
          ((s.part.bay b).session.active = true →
            (t.part.bay b).startLevel = some ((s.part.bay b).startLevel.getD level) ∧
            (hot ∨ high ∨ weak → (t.part.bay b).session = .halted ∧
              ∃ f, (t.part.bay b).fault = some f ∧ (hot → FaultClass.hot ∈ f.classes) ∧
                (high → FaultClass.overvolt ∈ f.classes) ∧ (weak → FaultClass.weakcell ∈ f.classes)) ∧
            (¬(hot ∨ high ∨ weak) → (t.part.bay b).fault = (s.part.bay b).fault ∧
              (t.part.bay b).session =
                (if (s.part.bay b).session = .charging then (if level = 100 then .topped else .charging)
                 else if level < s.part.profile.topupLevel then .charging else .topped))))) ∧
    ∀ (c : ChannelNo) (j : Job) (w : Transaction) (serial : Byte), s.part.jobsSound →
      (s.part.channel c).active = some j → (s.part.channel c).tx = some w →
      (∀ a, j.bay ≠ b ∨ w.serial ≠ serial →
        ∃ t, exec (.pollAnswer r [.dockAnswer c (n.val + 1) serial a]) s = .next t ∧ s.after t ∧
          EngineStep (s.part.pollAnswered r (.poll cs ds o)) t.part ∧
          (w.isOut = true → (t.part.channel c).active = some j ∧ (t.part.channel c).tx = some w)) ∧
      (j.bay = b → w.serial = serial →
        (∀ a why, (a, why) ∈ [(DockAnswer.notBlank, FailReason.notBlank), (.verifyFail, .verifyFail),
            (.refused, .refused)] →
          ∃ t, exec (.pollAnswer r [.dockAnswer c (n.val + 1) serial a]) s = .next t ∧ s.after t ∧
            RackStep (s.part.pollAnswered r (.poll cs ds o)) t.part ∧
            (t.part.bay b).fault = (s.part.bay b).fault ∧
            ((∀ i, (s.part.channel c).parked = some i → i.bay ≠ b) →
              (t.part.bay b).lastJob = some ⟨j.number, j.work.kind, .failed why⟩)) ∧
        (∀ bytes i, parseIdent bytes = some i → i.sound = true → j.work = .identify → w.dock = .identRead →
          i.unit = j.unit → (s.part.entry j.unit).map (·.cls) = i.unitClass →
          ∃ t e, exec (.pollAnswer r [.dockAnswer c (n.val + 1) serial (.done (.ident bytes))]) s = .next t ∧
            s.after t ∧ (t.part.bay b).identified = true ∧ t.part.entry j.unit = some e ∧
            e.fwRevision = i.fw ∧ some e.fwState = i.state ∧ e.tuned = i.tuned ∧
            ((∀ k, (s.part.channel c).parked = some k → k.bay ≠ b) →
              (t.part.bay b).lastJob = some ⟨j.number, .identify, .done⟩)) ∧
        (∀ cls k v, j.work = .refresh cls → w.dock = .areaCheck k →
          ∃ t, exec (.pollAnswer r [.dockAnswer c (n.val + 1) serial (.done (.check v))]) s = .next t ∧
            s.after t ∧ RackStep (s.part.pollAnswered r (.poll cs ds o)) t.part ∧
            (t.part.bay b).fault = (s.part.bay b).fault ∧
            (v = (s.part.slot cls).checksum →
              (t.part.channel c).active = some { j with phase := some .commit } ∧
              ∃ w', (t.part.channel c).tx = some w' ∧
                w'.dock = .commit (BitVec.ofNat 16 (s.part.slot cls).revision) ∧ w'.addr = none ∧
                w'.serial = (s.part.channel c).serial ∧ w'.attempts = 1) ∧
            (v ≠ (s.part.slot cls).checksum → (t.part.bay b).refreshHold = true ∧
              ((∀ k, (s.part.channel c).parked = some k → k.bay ≠ b) →
                (t.part.bay b).lastJob = some ⟨j.number, .refresh, .failed .verifyFail⟩))) ∧
        (∀ area a k i bytes, j.work = .maintRead area a k → j.ident = some i → w.dock = .pageRead →
          bytes.length = 256 →
          ∃ t, exec (.pollAnswer r [.dockAnswer c (n.val + 1) serial (.done (.page bytes))]) s = .next t ∧
            s.after t ∧ EngineStep (s.part.pollAnswered r (.poll cs ds o)) t.part ∧
            (j.progress + 1 < k →
              (t.part.channel c).staging = some ⟨bytes, j.number, .maintRead, a + 256 * j.progress⟩ ∧
              (areaCheck i (some area) .pageRead (a + 256 * (j.progress + 1)) = none →
                (t.part.channel c).active = some { j with progress := j.progress + 1, phase := some .read } ∧
                ∃ w', (t.part.channel c).tx = some w' ∧ w'.dock = .pageRead ∧
                  w'.addr = some (a + 256 * (j.progress + 1)) ∧
                  w'.serial = (s.part.channel c).serial ∧ w'.attempts = 1) ∧
              ∀ v, areaCheck i (some area) .pageRead (a + 256 * (j.progress + 1)) = some v →
                (t.part.channel c).state = .locked ∧
                (t.part.channel c).violation = some ⟨v, a + 256 * (j.progress + 1), j.number⟩ ∧
                ((∀ q, (s.part.channel c).parked = some q → q.bay ≠ b) →
                  (t.part.bay b).lastJob = some ⟨j.number, .maintRead, .failed .violation⟩)) ∧
            (k ≤ j.progress + 1 →
              ((s.part.channel c).parked = none → (∀ q ∈ s.part.queue, q.work.kind ≠ .maintWrite) →
                (t.part.channel c).staging = some ⟨bytes, j.number, .maintRead, a + 256 * j.progress⟩) ∧
              ((∀ q, (s.part.channel c).parked = some q → q.bay ≠ b) →
                (t.part.bay b).lastJob = some ⟨j.number, .maintRead, .done⟩))) ∧
        ∃ t, exec (.pollAnswer r [.dockAnswer c (n.val + 1) serial (.done .none)]) s = .next t ∧ s.after t ∧
          RackStep (s.part.pollAnswered r (.poll cs ds o)) t.part ∧
          (∀ area a d data, j.work = .maintWrite area a d → w.dock = .pageProgram data → j.ident.isSome = true →
            EngineStep (s.part.pollAnswered r (.poll cs ds o)) t.part ∧
            ((∀ q, (s.part.channel c).parked = some q → q.bay ≠ b) →
              (t.part.bay b).lastJob = some ⟨j.number, .maintWrite, .done⟩)) ∧
          (∀ area a k i, j.work = .maintErase area a k → j.ident = some i → w.dock = .blockErase →
            EngineStep (s.part.pollAnswered r (.poll cs ds o)) t.part ∧
            (j.progress + 1 < k →
              (areaCheck i (some area) .blockErase (a + 4096 * (j.progress + 1)) = none →
                (t.part.channel c).active = some { j with progress := j.progress + 1, phase := some .erase } ∧
                ∃ w', (t.part.channel c).tx = some w' ∧ w'.dock = .blockErase ∧
                  w'.addr = some (a + 4096 * (j.progress + 1)) ∧
                  w'.serial = (s.part.channel c).serial ∧ w'.attempts = 1) ∧
              ∀ v, areaCheck i (some area) .blockErase (a + 4096 * (j.progress + 1)) = some v →
                (t.part.channel c).state = .locked ∧
                (t.part.channel c).violation = some ⟨v, a + 4096 * (j.progress + 1), j.number⟩ ∧
                ((∀ q, (s.part.channel c).parked = some q → q.bay ≠ b) →
                  (t.part.bay b).lastJob = some ⟨j.number, .maintErase, .failed .violation⟩)) ∧
            (k ≤ j.progress + 1 → (∀ q, (s.part.channel c).parked = some q → q.bay ≠ b) →
              (t.part.bay b).lastJob = some ⟨j.number, .maintErase, .done⟩)) ∧
          (∀ tune addr lang rev, j.work = .tune tune → w.dock = .tuneWrite addr lang rev →
            (∀ e, s.part.entry j.unit = some e →
              ∃ e', t.part.entry j.unit = some e' ∧ e'.tuned = tune.isSome) ∧
            ((∀ k, (s.part.channel c).parked = some k → k.bay ≠ b) →
              (t.part.bay b).lastJob = some ⟨j.number, .tune, .done⟩)) ∧
          (∀ cls rev, j.work = .refresh cls → w.dock = .commit rev →
            (∀ e, s.part.entry j.unit = some e → ∃ e', t.part.entry j.unit = some e' ∧
              e'.fwState = .complete ∧ e'.fwRevision = BitVec.ofNat 16 (s.part.slot cls).revision) ∧
            ((∀ k, (s.part.channel c).parked = some k → k.bay ≠ b) →
              (t.part.bay b).lastJob = some ⟨j.number, .refresh, .done⟩)) ∧
          ∀ cls i, j.work = .refresh cls → j.ident = some i → (s.part.channel c).state = .running →
            s.part.urgentQueued = false →
            (w.dock = .blockErase → j.erased + 1 < (refreshBlocks i j.total).2 →
              areaCheck i (some .firmware) .blockErase
                (((refreshBlocks i j.total).1 + (j.erased + 1)) * 4096) = none →
              (t.part.channel c).active = some { j with erased := j.erased + 1, phase := some .erase } ∧
              ∃ w', (t.part.channel c).tx = some w' ∧ w'.dock = .blockErase ∧
                w'.addr = some (((refreshBlocks i j.total).1 + (j.erased + 1)) * 4096) ∧
                w'.serial = (s.part.channel c).serial ∧ w'.attempts = 1) ∧
            (w.dock = .blockErase → (refreshBlocks i j.total).2 ≤ j.erased + 1 → j.progress < j.total →
              areaCheck i (some .firmware) (.pageProgram []) ((i.fwBase + j.progress) * 256) = none →
              (t.part.channel c).active = some { j with erased := j.erased + 1, phase := some .program } ∧
              ∃ w', (t.part.channel c).tx = some w' ∧
                w'.dock = .pageProgram (s.nv.readPage cls j.progress).1 ∧
                w'.addr = some ((i.fwBase + j.progress) * 256) ∧
                w'.serial = (s.part.channel c).serial ∧ w'.attempts = 1) ∧
            (∀ data, w.dock = .pageProgram data → (refreshBlocks i j.total).2 ≤ j.erased →
              (j.progress + 1 < j.total →
                areaCheck i (some .firmware) (.pageProgram []) ((i.fwBase + (j.progress + 1)) * 256) = none →
                (t.part.channel c).active = some { j with progress := j.progress + 1, phase := some .program } ∧
                ∃ w', (t.part.channel c).tx = some w' ∧
                  w'.dock = .pageProgram (s.nv.readPage cls (j.progress + 1)).1 ∧
                  w'.addr = some ((i.fwBase + (j.progress + 1)) * 256) ∧
                  w'.serial = (s.part.channel c).serial ∧ w'.attempts = 1) ∧
              (j.total ≤ j.progress + 1 →
                (t.part.channel c).active = some { j with progress := j.progress + 1, phase := some .check } ∧
                ∃ w', (t.part.channel c).tx = some w' ∧ w'.dock = .areaCheck j.total ∧ w'.addr = none)))

/-- What a CYCLE_MARK does to a zone and its units, in the order of the boundary. A voice packet of an uplink slot
of the plan in force becomes the current frame of the stream its unit is the source of, where that stream
sounds. The house advance moves each track to the next frame of its buffer, or starves it. The frame of a
placed tour carriage is the stream's current one, where it sounds and was not the last carried, and silence
otherwise; the plan published and sent carries for each slot held the frame so chosen after the filing and the
advance, and the carriage keeps its serial as the last it carried. Each linger falls by 1, and a carriage whose linger reaches 0 is removed. A status record of an
invalid unit, an unlisted occupant, a DOCKED entry or another class changes nothing; one the zone choice does
not take renews the level and the silence timer; one it takes puts the entry ON_AIR in the zone, and where it
acknowledges the pending notice ends it with its effect, and otherwise is adopted or repaired; one of a unit
not in the table takes the lowest free place, or that of the oldest SILENT entry, or is dropped. That the
countdown of a linger is the boundary's is the model's reading (log 3), and so is the claim check of a repair
RETUNE acknowledged by an entry of another tour (log 27). -/
def Obligations.BoundaryFilesFramesCountsLingersAndTakesStatuses : Prop :=
  (∀ (s : State) (z : ZoneNo) (m : CycleMark), s.deaf = false → (s.part.zone z).state = .up →
    ∃ t, exec (.cycleMark z m) s = .next t ∧ s.after t ∧ ReportStep (s.part.boundary z m) t.part) ∧
  (∀ (p : Machine.Part) (z : ZoneNo) (m : CycleMark) (q : Machine.Part),
    q = (takenPackets m).foldl (fun q v => q.filePacket z v) (p.markTaken z m.cycle) →
    p.boundary z m = (takenStatuses m).foldl (fun q st => q.statusRecord z st)
      (((if (q.house.covers z && q.house.advanceDue) = true then q.houseAdvance else q).publish z m.cycle).modZone z
        Zone.countLinger)) ∧
  (∀ (p : Machine.Part) (z : ZoneNo) (v : VoicePacket),
    (∀ plan u t, (p.zone z).plan = some plan → plan.beacon.uplinkMap.find? (·.1 == v.slot) = some (v.slot, u) →
      p.sourceOf u = some t → (p.zone z).soundingSet.contains t = true →
      (p.filePacket z v).frames.frame t = some ⟨t, v.audio, p.frames.next⟩ ∧
      (p.filePacket z v).frames.next = p.frames.next + 1 ∧
      (∀ y, y ≠ t → (p.filePacket z v).frames.frame y = p.frames.frame y) ∧
      p.filePacket z v = { p with frames := (p.filePacket z v).frames }) ∧
    ((p.zone z).plan = none → p.filePacket z v = p) ∧
    (∀ plan, (p.zone z).plan = some plan → plan.beacon.uplinkMap.find? (·.1 == v.slot) = none →
      p.filePacket z v = p)) ∧
  (∀ p : Machine.Part,
    ReportStep { p with house := { p.house with
      advanceDue := false
      tracks := p.house.tracks.map fun k => match k.buffer with
        | a :: rest => { k with buffer := rest, current := some a, serial := k.serial + 1 }
        | [] => { k with current := none, starved := min (k.starved + 1) 65535 } } } p.houseAdvance) ∧
  (∀ (p : Machine.Part) (x : Zone) (c : Carriage) (t : Tune), c.stream = .tour t →
    (∀ f, x.soundingSet.contains t = true → p.frames.frame t = some f → c.lastFrame ≠ some f.serial.toNat →
      p.chooseFrame x c = (.voice f.audio, some f.serial.toNat)) ∧
    ((x.soundingSet.contains t = false ∨ p.frames.frame t = none ∨
        ∃ f, p.frames.frame t = some f ∧ c.lastFrame = some f.serial.toNat) →
      p.chooseFrame x c = (.silence, c.lastFrame))) ∧
  (∀ (s : State) (z : ZoneNo) (m : CycleMark) (q w : Machine.Part), s.deaf = false → (s.part.zone z).state = .up →
    q = (takenPackets m).foldl (fun q v => q.filePacket z v) (s.part.markTaken z m.cycle) →
    w = (if (q.house.covers z && q.house.advanceDue) = true then q.houseAdvance else q) →
    ∃ t plan, exec (.cycleMark z m) s = .next t ∧ (t.part.zone z).plan = some plan ∧
      (t.part.zone z).sent = some (.cyclePlan plan) ∧
      plan.audio = (w.zone z).holders.map fun h => (h.1, (w.chooseFrame (w.zone z) h.2).1)) ∧
  (∀ (p : Machine.Part) (z : ZoneNo) (n : BitVec 16) (st : CarrStream) (c : Carriage),
    (p.zone z).carriage st = some c →
    ((p.publish z n).zone z).carriage st =
      some (if c.slot.isSome = true then { c with lastFrame := (p.chooseFrame (p.zone z) c).2 } else c)) ∧
  (∀ (x : Zone) (st : CarrStream) (c : Carriage) (n : Nat), (x.carriages.map (·.stream)).Nodup →
    x.carriage st = some c → ¬st ∈ x.waitQueue →
    (c.linger = none → x.countLinger.carriage st = some c) ∧
    (c.linger = some n → 1 < n → x.countLinger.carriage st = some { c with linger := some (n - 1) }) ∧
    (c.linger = some n → n ≤ 1 → x.countLinger.carriage st = none)) ∧
  (∀ (p : Machine.Part) (z : ZoneNo) (st : StatusRecord),
    (validUnit st.unit = false ∨ p.unlistedIn st.unit = true → p.statusRecord z st = p) ∧
    (validUnit st.unit = true → p.unlistedIn st.unit = false →
      (p.entry st.unit = none →
        (p.freePlace = none → p.oldestSilent = none → p.statusRecord z st = p) ∧
        (∀ i, p.freePlace = some i → ∃ d, (p.statusRecord z st).find st.unit = some (i, d) ∧
          d.state = .onAir ∧ d.zone = some z ∧ d.cls = st.cls ∧ d.level = st.level ∧ d.quality = st.quality) ∧
        (∀ i v, p.freePlace = none → p.oldestSilent = some (i, v) →
          (p.statusRecord z st).entry v.unit = none ∧
          ∃ d, (p.statusRecord z st).find st.unit = some (i, d) ∧ d.state = .onAir ∧ d.zone = some z)) ∧
      ∀ e, p.entry st.unit = some e →
        (e.state = .docked ∨ e.cls ≠ st.cls → p.statusRecord z st = p) ∧
        (e.state ≠ .docked → e.cls = st.cls →
          (∀ y, e.zone = some y → y ≠ z → st.quality ≤ e.quality + p.profile.zoneMargin →
            p.now - e.lastHeard ≤ 1000 * p.profile.zoneStale →
            (p.statusRecord z st).entry st.unit = some { e with
              level := st.level, silence := some (p.now + 1000 * p.profile.silenceLimit) } ∧
            p.statusRecord z st = { p with units := (p.statusRecord z st).units }) ∧
          ((e.zone = none ∨ e.zone = some z ∨ e.quality + p.profile.zoneMargin < st.quality ∨
              1000 * p.profile.zoneStale < p.now - e.lastHeard) →
            ∃ d, (p.statusRecord z st).entry st.unit = some d ∧ d.state = .onAir ∧ d.zone = some z ∧
              d.level = st.level ∧ d.quality = st.quality ∧ d.lastHeard = p.now ∧
              d.silence = some (p.now + 1000 * p.profile.silenceLimit) ∧
              (∀ n, e.notice = some n → st.ack = some n.seq → d.notice = none ∧
                (n.kind = .untune → d.assignment = none) ∧ (n.kind = .locate → d.assignment = e.assignment) ∧
                (∀ t, n.kind = .retune → n.target = some t →
                  (n.reserving = true → d.assignment = some t) ∧
                  (n.reserving = false → d.assignment =
                    (if e.assignment.map (·.tour) = some t.tour ∨ p.claimCheck t.tour t.lang = none then some t
                     else none)))) ∧
              (∀ n, e.notice = some n → st.ack ≠ some n.seq →
                d.notice = e.notice ∧ d.assignment = e.assignment) ∧
              (e.notice = none → e.cls = .voice → d.assignment = e.assignment ∧ d.notice = none) ∧
              (e.notice = none → e.cls = .listener → e.assignment = none → d.notice = none ∧
                ∀ t, reportedTune st.tour st.lang = some t →
                  d.assignment =
                    (if e.retired = false ∧ p.claimCheck t.tour t.lang = none then some t else none)) ∧
              (∀ a, e.notice = none → e.cls = .listener → e.assignment = some a → d.assignment = some a ∧
                d.notice =
                  (if reportedTune st.tour st.lang ≠ some a ∧ (p.tour a.tour).state.open = true then
                    some ⟨.retune, some a, false, e.nextSeq, p.now + 1000 * p.profile.noticeLife, p.now⟩
                   else none))))))

/-- The area check of a transaction answers the first violation of its table: BOOT_AREA for a write whose
range overlaps the boot area, MISALIGNED for a write whose address is no multiple of its size, OUT_OF_AREA
for a range not wholly inside the open area. -/
def Obligations.AreaCheckAnswersTheFirstViolation : Prop :=
  ∀ (i : Ident) (area : Option Area) (k : Dock) (addr : Nat),
    areaCheck i area k addr =
      (if k.writes = true ∧ addr < i.bootPages * 256 then some .bootArea
       else if k.writes = true ∧ addr % (if k = .blockErase then 4096 else 256) ≠ 0 then some .misaligned
       else match area with
        | none => some .outOfArea
        | some a =>
          if (i.range a).1 ≤ addr ∧ addr + (if k = .blockErase then 4096 else 256) ≤ (i.range a).2 then none
          else some .outOfArea)

/-- IMAGE_BEGIN with the store engine IDLE and no REFRESH naming the slot makes the slot LOADING with nothing
written and starts the region's erase; its reply waits. IMAGE_PAGE of a page not yet written records it in
the written map and starts its write; its reply waits. A page above the count is refused with BADARG, a
page written with STATE, a BUSY engine with STOREBUSY. IMAGE_SEAL of a LOADING slot makes it SEALED when
the check of the pages as read is the checksum, and EMPTY otherwise, and starts the write of that header;
its reply waits. Which end of the check's register is the most significant is the model's choice (log 35). -/
def Obligations.ImageCommandsStartStoreOperations : Prop :=
  (∀ (s : State) (tag : Byte) (c : UnitClass) (r n : Nat) (k : BitVec 32), s.takes tag → 1 ≤ r → r ≤ 65535 →
    1 ≤ n → n ≤ 800 → s.part.refreshNames c = false → s.part.store.op = none →
    ∃ t, exec (.imageBegin tag (.val c) (.val r) (.val n) (.val k)) s = .next t ∧
      s.held t tag (txt "IMAGE_BEGIN") ∧ t.part.slot c = .loading r n k [] ∧
      t.part.store.op = some (.regionErase (.imageBegin c)) ∧
      ReportStep ((s.part.setSlot c (.loading r n k [])).startOp (.regionErase (.imageBegin c))) t.part) ∧
  (∀ (s : State) (tag : Byte) (c : UnitClass) (n r k : Nat) (v : BitVec 32) (w : List Nat) (d : List Byte),
    s.takes tag → d.length = 256 → s.part.slot c = .loading r k v w →
    (k ≤ n → ∃ t, exec (.imagePage tag (.val c) (.val n) (.val d)) s = .next t ∧
      s.answered t tag (txt "IMAGE_PAGE") .badArg [] ∧ t.part = s.part) ∧
    (n < k → w.contains n = true → ∃ t, exec (.imagePage tag (.val c) (.val n) (.val d)) s = .next t ∧
      s.answered t tag (txt "IMAGE_PAGE") .state [] ∧ t.part = s.part) ∧
    (n < k → w.contains n = false → s.part.store.op ≠ none →
      ∃ t, exec (.imagePage tag (.val c) (.val n) (.val d)) s = .next t ∧
        s.answered t tag (txt "IMAGE_PAGE") .storeBusy [] ∧ t.part = s.part) ∧
    (n < k → w.contains n = false → s.part.store.op = none →
      ∃ t x, exec (.imagePage tag (.val c) (.val n) (.val d)) s = .next t ∧
        s.held t tag (txt "IMAGE_PAGE") ∧ t.part.slot c = .loading r k v x ∧
        (∀ m, m ∈ x ↔ m = n ∨ m ∈ w) ∧ t.part.store.op = some (.pageWrite c n d) ∧
        ReportStep ((s.part.setSlot c (.loading r k v x)).startOp (.pageWrite c n d)) t.part)) ∧
  (∀ (s : State) (tag : Byte) (c : UnitClass) (r n : Nat) (v : BitVec 32) (w : List Nat), s.takes tag →
    s.part.slot c = .loading r n v w → s.part.store.op = none →
    ∃ t, exec (.imageSeal tag (.val c)) s = .next t ∧ s.held t tag (txt "IMAGE_SEAL") ∧
      t.part.slot c = (if (s.nv.imageCheck c n).1 = v then .sealed r n v else .empty) ∧
      t.part.store.op = some (.headerWrite c
        (if (s.nv.imageCheck c n).1 = v then .sealed r n v else .empty)
        (if (s.nv.imageCheck c n).1 = v then none else some (s.nv.imageCheck c n).1)) ∧
      t.part.issues = s.part.issues ∧ t.part.units = s.part.units ∧ t.part.tours = s.part.tours)

/-! ### Issue and return (R177 to R190) -/

/-- ISSUE takes the unit chosen for a FREE record: a tune makes a TUNING record with its claim, its limit
timer and a TUNE of the next number; none makes a PICKING record with its pick timer. The reply names the
record, the unit and its bay. The record is the FREE one of the lowest number; the unit is the one of the
class nearest the head of the rack's ready queue, or the unit named, standing in a ready queue. That the reply
writes the unit's id in capitals and the bay in two digits is the model's choice (log 14). -/
def Obligations.IssueTakesAFreeRecord : Prop :=
  (∀ (s : State) (tag : Byte) (fr : HostField Nat) (fc : HostField UnitClass) (fu : HostField UnitId) (ft fl : HostField Nat)
    (f : IssueForm) (n : IssueNo) (b : BayRef) (e : Entry) (tune : Option Tune), s.takes tag →
    issueForm fr fc fu ft fl = some f → s.part.freeRecord = some n →
    s.part.issueChoice f = .inl (b, tune) → s.part.occupantEntry b = some e →
    ∃ t, exec (.issue tag fr fc fu ft fl) s = .next t ∧
      s.answered t tag (txt "ISSUE") .ok
        [fld "issue" (numText (n.val + 1)), fld "unit" (hex8 e.unit), fld "bay" (bayText b),
         fld "job" (if tune.isSome = true then
           numText s.part.nextNumber else txt "-")] ∧
      (t.part.issue n).unit = some e.unit ∧ (t.part.issue n).bay = some b ∧
      (t.part.issue n).cls = some e.cls ∧ (t.part.issue n).tune = tune ∧
      (t.part.issue n).issuedAt = some s.part.now ∧
      (∀ x, tune = some x → (t.part.issue n).state = .tuning ∧
        (t.part.issue n).job = some (s.part.nextNumber, none) ∧
        (t.part.issue n).limit = some (s.part.now + 1000 * s.part.profile.issueLimit) ∧
        (t.part.tour x.tour).count = (s.part.tour x.tour).count + 1) ∧
      (tune = none → (t.part.issue n).state = .picking ∧
        (t.part.issue n).pick = some (s.part.now + 1000 * s.part.profile.pickTime) ∧
        t.part.tours = s.part.tours) ∧
      (∀ m, m ≠ n → t.part.issue m = s.part.issue m) ∧ t.part.units = s.part.units ∧ RackStep s.part t.part) ∧
  (∀ (p : Machine.Part) (n : IssueNo), p.freeRecord = some n ↔
    (p.issue n).state = .free ∧ ∀ m, m < n → (p.issue m).state ≠ .free) ∧
  (∀ (p : Machine.Part) (r : RackNo) (cls : UnitClass) (x y : Option Tune) (b : BayRef),
    p.issueChoice (.byRack r cls x) = .inl (b, y) →
    y = x ∧ b.rack = r ∧ (p.occupantEntry b).map (·.cls) = some cls ∧
    ∃ front back, (p.rack r).ready = front ++ b.no :: back ∧
      ∀ n ∈ front, (p.occupantEntry ⟨r, n⟩).map (·.cls) ≠ some cls) ∧
  ∀ (p : Machine.Part) (u : UnitId) (x y : Option Tune) (b : BayRef),
    p.issueChoice (.byUnit u x) = .inl (b, y) →
    y = x ∧ p.listedIn b = some u ∧ b.no ∈ (p.rack b.rack).ready

/-- ISSUE_CANCEL ends a record in progress as CANCELLED; a record that is not is refused with STATE. The reply
tells whether an UNTUNE need was handed. The limit timer of a TUNING record ends it FAILED TIMEOUT, and
the pick timer of a PICKING record ends it EXPIRED; a record whose final state's kind is disabled is freed
at once. That the end of a timer takes place at the later of the time and the deadline is the model's choice
(log 2). -/
def Obligations.IssueCancelAndTimersEndTheRecord : Prop :=
  (∀ (s : State) (tag : Byte) (n : IssueNo), s.takes tag →
    ((s.part.issue n).state.inProgress = false →
      ∃ t, exec (.issueCancel tag (.val (n.val + 1))) s = .next t ∧
        s.answered t tag (txt "ISSUE_CANCEL") .state [] ∧ t.part = s.part) ∧
    ((s.part.issue n).state.inProgress = true →
      ∃ t, exec (.issueCancel tag (.val (n.val + 1))) s = .next t ∧
        s.answered t tag (txt "ISSUE_CANCEL") .ok [fld "untune" (bit (s.part.issue n).tuned)] ∧
        (s.part.profile.disabledKinds.contains .cancelled = false →
          (t.part.issue n).state = .cancelled ∧ (t.part.issue n).endAt = some s.part.now ∧
          (t.part.issue n).limit = none ∧ (t.part.issue n).pick = none ∧
          (t.part.issue n).unit = (s.part.issue n).unit ∧ (t.part.issue n).bay = (s.part.issue n).bay) ∧
        (s.part.profile.disabledKinds.contains .cancelled = true → t.part.issue n = Issue.free) ∧
        RackStep s.part t.part)) ∧
  (∀ (s : State) (n : IssueNo) (d : Millis), s.deaf = false →
    ((s.part.issue n).state = .tuning → (s.part.issue n).limit = some d →
      ∃ t, exec (.limitTimerExpiry n) s = .next t ∧ s.after t ∧
        (s.part.profile.disabledKinds.contains .failed = false →
          (t.part.issue n).state = .failed ∧ (t.part.issue n).reason = some .timeout ∧
          (t.part.issue n).endAt = some (max s.part.now d) ∧ (t.part.issue n).limit = none) ∧
        (s.part.profile.disabledKinds.contains .failed = true → t.part.issue n = Issue.free) ∧
        RackStep { s.part with now := max s.part.now d } t.part) ∧
    ((s.part.issue n).state = .picking → (s.part.issue n).pick = some d →
      ∃ t, exec (.pickTimerExpiry n) s = .next t ∧ s.after t ∧
        (s.part.profile.disabledKinds.contains .expired = false →
          (t.part.issue n).state = .expired ∧ (t.part.issue n).reason = none ∧
          (t.part.issue n).endAt = some (max s.part.now d) ∧ (t.part.issue n).pick = none) ∧
        (s.part.profile.disabledKinds.contains .expired = true → t.part.issue n = Issue.free) ∧
        RackStep { s.part with now := max s.part.now d } t.part))

/-! ### Settings (R199, R200, R202 to R204) -/

/-- REPORT_ENABLE enables the kinds of `on` and then disables those of `off`; a kind it turned off is left in no
pending report, no report is left empty, and the reply lists the disabled kinds, in an order that is the model's
choice (log 33). -/
def Obligations.ReportEnableSetsTheKinds : Prop :=
  ∀ (s : State) (tag : Byte) (on off : HostField KindList) (a b : List EventKind), s.takes tag →
    enableKinds on off = some (a, b) →
    ∃ t, exec (.reportEnable tag on off) s = .next t ∧
      s.answered t tag (txt "REPORT_ENABLE") .ok
        [fld "off" (commasOrDash (t.part.profile.disabledKinds.map kindText))] ∧
      (∀ k, k ∈ t.part.profile.disabledKinds ↔
        k ∈ b ∨ (k ∈ s.part.profile.disabledKinds ∧ k ∉ a)) ∧
      (∀ r ∈ t.part.reports, r.kinds ≠ [] ∧ ∀ k ∈ r.kinds, k ∈ t.part.profile.disabledKinds →
        k ∈ s.part.profile.disabledKinds) ∧
      t.part = { s.part with
        profile := { s.part.profile with disabledKinds := t.part.profile.disabledKinds }
        issues := t.part.issues, reports := t.part.reports }

/-- SET writes every field it carries into the working profile, in order, or none: it is refused with BADARG
for a value out of its parameter's range and for thresholds out of order, and with INUSE for turning off a
language in use. Carried out, a zone whose enable is left off is DISABLED, torn down if it was UP, and one left
on that was DISABLED or turned off in between is DOWN; a rack left off is DISABLED with its poll timer stopped,
its bays without a session if it was ONLINE, and one left on that was DISABLED or turned off in between is
OFFLINE with its poll timer started; any other zone and rack keeps its state. A change of a parameter that
RACK_SETUP carries sets the setup order of every rack that stays ONLINE. Each bay of an ONLINE rack shows the
display its record gives, ordered if it was not, and with ready_level among the fields its rack's ready queue
holds just the bays for which the ready conditions hold. Stated for sound claimants and docks where ready queues
are concerned, invariants of their own. -/
def Obligations.SetWritesTheProfile : Prop :=
  ∀ (s : State) (tag : Byte) (fs : List (Param × SetValue)), s.takes tag →
    ((fs = [] ∨ (∃ f ∈ fs, setValueOk f.1 f.2 = false) ∨ (s.part.profile.writeAll fs).ascending = false) →
      ∃ t, exec (.set tag fs) s = .next t ∧ s.answered t tag (txt "SET") .badArg [] ∧ t.part = s.part) ∧
    (fs ≠ [] → (∀ f ∈ fs, setValueOk f.1 f.2 = true) → (s.part.profile.writeAll fs).ascending = true →
      ((∃ f ∈ fs, s.part.turnsOffUsed f = true) →
        ∃ t, exec (.set tag fs) s = .next t ∧ s.answered t tag (txt "SET") .inUse [] ∧ t.part = s.part) ∧
      ((∀ f ∈ fs, s.part.turnsOffUsed f = false) →
        ∃ t, exec (.set tag fs) s = .next t ∧ s.answered t tag (txt "SET") .ok [] ∧
          t.part.profile = s.part.profile.writeAll fs ∧ t.part.house = s.part.house ∧
          t.part.now = s.part.now ∧ t.part.retireList = s.part.retireList ∧
          t.part.listenerSlot = s.part.listenerSlot ∧ t.part.voiceSlot = s.part.voiceSlot ∧
          (∀ z : ZoneNo,
            (lastSet fs (.zoneEnable z) = none → (t.part.zone z).state = (s.part.zone z).state) ∧
            (lastSet fs (.zoneEnable z) = some (.onOff false) → (t.part.zone z).state = .disabled ∧
              ((s.part.zone z).state = .up → (t.part.zone z).carriages = [] ∧ (t.part.zone z).plan = none ∧
                (t.part.zone z).downTimer = none ∧ ∀ u e, t.part.entry u = some e → e.zone ≠ some z)) ∧
            (lastSet fs (.zoneEnable z) = some (.onOff true) → (t.part.zone z).state =
              (if (s.part.zone z).state = .disabled ∨ (.zoneEnable z, .onOff false) ∈ fs then .down
               else (s.part.zone z).state))) ∧
          (∀ r : RackNo,
            (lastSet fs (.rackEnable r) = none → (t.part.rack r).state = (s.part.rack r).state) ∧
            (lastSet fs (.rackEnable r) = some (.onOff false) → (t.part.rack r).state = .disabled ∧
              ((s.part.rack r).state ≠ .disabled → (t.part.rack r).pollTimer = none ∧
                (t.part.rack r).pollDue = none) ∧
              ((s.part.rack r).state = .online → (t.part.rack r).ready = [] ∧ ∀ n : BayNo,
                (t.part.bay ⟨r, n⟩).session = .none ∧
                (t.part.bay ⟨r, n⟩).occupant = (s.part.bay ⟨r, n⟩).occupant)) ∧
            (lastSet fs (.rackEnable r) = some (.onOff true) →
              (t.part.rack r).state =
                (if (s.part.rack r).state = .disabled ∨ (.rackEnable r, .onOff false) ∈ fs then .offline
                 else (s.part.rack r).state) ∧
              ((s.part.rack r).state = .disabled ∨ (.rackEnable r, .onOff false) ∈ fs →
                (t.part.rack r).pollTimer = some (s.part.now + 100))) ∧
            ((t.part.rack r).state = .online →
              (∀ n v, (.num n, v) ∈ fs → setupParam n = true →
                t.part.profile.value (.num n) ≠ s.part.profile.value (.num n) →
                (t.part.rack r).setupOrder.isSome = true) ∧
              ((∀ n v, (.num n, v) ∈ fs → setupParam n = false) →
                (t.part.rack r).setupOrder.isSome = (s.part.rack r).setupOrder.isSome) ∧
              ∀ n : BayNo, t.part.present ⟨r, n⟩ = true →
                (t.part.bay ⟨r, n⟩).display = t.part.displayOf ⟨r, n⟩ ∧
                (t.part.bay ⟨r, n⟩).ordered = t.part.displayOf ⟨r, n⟩ ∧
                (t.part.displayOf ⟨r, n⟩ ≠ (s.part.bay ⟨r, n⟩).ordered →
                  (t.part.bay ⟨r, n⟩).displayOrder.map (·.value) = some (t.part.displayOf ⟨r, n⟩)) ∧
                (∀ v, (.num .readyLevel, v) ∈ fs → s.part.claimantsSound → s.part.docksSound →
                  (n ∈ (t.part.rack r).ready ↔ t.part.readyHolds ⟨r, n⟩ = true))))))

/-- PROFILE_SAVE, STORE_FORMAT and RESTART are refused with STOREBUSY while the store engine is BUSY. With it
IDLE, PROFILE_SAVE starts the save of the profile as it stands; STORE_FORMAT, with no job on a channel,
empties the retire list and both image slots, sets every default and starts the erase of every region;
RESTART is answered OK and marks the slot for the full reset that follows its reply. -/
def Obligations.StoreCommandsUseAnIdleEngine : Prop :=
  ∀ (s : State) (tag : Byte), s.takes tag →
    (s.part.store.op ≠ none →
      (∃ t, exec (.profileSave tag) s = .next t ∧
        s.answered t tag (txt "PROFILE_SAVE") .storeBusy [] ∧ t.part = s.part) ∧
      (s.part.anyJobOnChannel = false → ∃ t, exec (.storeFormat tag) s = .next t ∧
        s.answered t tag (txt "STORE_FORMAT") .storeBusy [] ∧ t.part = s.part) ∧
      ∃ t, exec (.restart tag) s = .next t ∧ s.answered t tag (txt "RESTART") .storeBusy [] ∧
        t.part = s.part) ∧
    (s.part.store.op = none →
      (∃ t, exec (.profileSave tag) s = .next t ∧ s.held t tag (txt "PROFILE_SAVE") ∧
        ReportStep (s.part.startOp (.profileSave s.part.profile)) t.part) ∧
      (s.part.anyJobOnChannel = false → ∃ t, exec (.storeFormat tag) s = .next t ∧
        s.held t tag (txt "STORE_FORMAT") ∧ t.part.store.op = some (.regionErase .format) ∧
        t.part.retireList = [] ∧ t.part.listenerSlot = .empty ∧ t.part.voiceSlot = .empty ∧
        t.part.profile = Profile.default) ∧
      ∃ t, exec (.restart tag) s = .next t ∧
        t.link.slot = some ⟨tag, txt "RESTART", true⟩ ∧
        t.awaits ⟨true, tag, txt "RESTART", .ok, []⟩ ∧ t.nv = s.nv ∧ t.pending = s.pending ∧
        t.part = s.part)

/-- The ends of a profile save and of a retire list save write the record that was being written, and nothing
else of the store; the engine becomes IDLE or saves the retire list next. A profile save's reply becomes
ready. The ends of a region erase, an image page write and a header write leave the store with what was
written and nothing else of it changed, and their replies become ready; a retire list save that is due begins
next. After the erase of IMAGE_BEGIN the region reads FF and its stored header is the slot's; after that of
STORE_FORMAT the store is blank. After a page write each byte of the page reads as it was sent, and every other
byte as before. After a header write the stored header is the one written. No word of another record comes to be
in error. That the field computed is written in capitals is the model's choice (log 14). -/
def Obligations.OperationEndsWriteTheStore : Prop :=
  (∀ (s : State) (x : Slot), s.deaf = false → s.nv.upsets = [] →
    (∀ f, s.part.store.op = some (.profileSave f) → s.link.slot = some x →
      ∃ t, exec .profileSaveDone s = .next t ∧ t.nv = { s.nv with profile := .record f } ∧
        t.awaits ⟨true, x.tag, x.verb, .ok, [fld "saved" (numText f.savedCount)]⟩ ∧
        t.part.store.op =
          (if s.part.store.retireDirty = true then some (.retireSave s.part.retireList) else none) ∧
        t.pending = s.pending ∧ t.part = { s.part with store := t.part.store }) ∧
    ∀ l, s.part.store.op = some (.retireSave l) →
      ∃ t, exec .retireListSaveDone s = .next t ∧ t.nv = { s.nv with retire := .record l } ∧
        t.part.store.op =
          (if s.part.store.retireDirty = true then some (.retireSave s.part.retireList) else none) ∧
        t.pending = s.pending ∧ ReportStep { s.part with store := t.part.store } t.part) ∧
  (∀ (s : State) (x : Slot), s.deaf = false → s.link.slot = some x →
    (∀ c, s.part.store.op = some (.regionErase (.imageBegin c)) →
      ∃ t, exec .regionEraseDone s = .next t ∧ t.awaits ⟨true, x.tag, x.verb, .ok, []⟩ ∧
        t.pending = s.pending ∧ (∀ a, (t.nv.image c).read a = 0xFF#8) ∧
        t.nv.header c = .record (s.part.slot c) ∧
        (∀ e, e ≠ c → t.nv.image e = s.nv.image e ∧ t.nv.header e = s.nv.header e) ∧
        t.nv.profile = s.nv.profile ∧ t.nv.retire = s.nv.retire ∧ (∀ u ∈ t.nv.upsets, u ∈ s.nv.upsets) ∧
        t.part.store.op =
          (if s.part.store.retireDirty = true then some (.retireSave s.part.retireList) else none) ∧
        t.part = { s.part with store := t.part.store }) ∧
    (s.part.store.op = some (.regionErase .format) →
      ∃ t, exec .regionEraseDone s = .next t ∧ t.awaits ⟨true, x.tag, x.verb, .ok, []⟩ ∧
        t.pending = s.pending ∧ t.nv = ⟨.erased, .erased, .erased, .erased, [], [], []⟩ ∧
        t.part.store.op =
          (if s.part.store.retireDirty = true then some (.retireSave s.part.retireList) else none) ∧
        t.part = { s.part with store := t.part.store }) ∧
    (∀ c n d, s.part.store.op = some (.pageWrite c n d) → d.length = 256 → n < 800 → s.nv.wf = true →
      ∃ t, exec .imagePageWriteDone s = .next t ∧ t.awaits ⟨true, x.tag, x.verb, .ok, []⟩ ∧
        t.pending = s.pending ∧
        (∀ i, i < 256 → (t.nv.image c).read (256 * n + i) = d.getD i 0xFF#8) ∧
        (∀ a, a < 256 * n ∨ 256 * n + 256 ≤ a → (t.nv.image c).read a = (s.nv.image c).read a) ∧
        (∀ e, e ≠ c → t.nv.image e = s.nv.image e) ∧ (∀ e, t.nv.header e = s.nv.header e) ∧
        t.nv.profile = s.nv.profile ∧ t.nv.retire = s.nv.retire ∧ (∀ u ∈ t.nv.upsets, u ∈ s.nv.upsets) ∧
        t.part.store.op =
          (if s.part.store.retireDirty = true then some (.retireSave s.part.retireList) else none) ∧
        t.part = { s.part with store := t.part.store }) ∧
    ∀ c h y, s.part.store.op = some (.headerWrite c h y) →
      ∃ t, exec .headerWriteDone s = .next t ∧ t.pending = s.pending ∧
        t.awaits ⟨true, x.tag, x.verb, if y = none then .ok else .badArg,
          match y with | none => [] | some v => [fld "computed" (hex8 v)]⟩ ∧
        t.nv.header c = .record h ∧ (∀ e, e ≠ c → t.nv.header e = s.nv.header e) ∧
        (∀ e, t.nv.image e = s.nv.image e) ∧ t.nv.profile = s.nv.profile ∧ t.nv.retire = s.nv.retire ∧
        (∀ u ∈ t.nv.upsets, u ∈ s.nv.upsets) ∧
        (s.part.store.retireDirty = true → t.part.store.op = some (.retireSave s.part.retireList)) ∧
        EngineStep { s.part with store := { s.part.store with op := none } } t.part)
end

