-- ==== Sys2Proof/Laws/State.lean ====
section
/-! SUPPORT. What each update of a record of the part leaves of every other field, and what a record reads
as after an update of its table: all by computation. -/

namespace Sys2Proof.Machine

/-! ### setTour -/

@[simp] theorem Part.setTour_now (p : Part) (t : TourNo) (x : Tour) : (p.setTour t x).now = p.now := rfl
@[simp] theorem Part.setTour_freeCount (p : Part) (t : TourNo) (x : Tour) : (p.setTour t x).freeCount = p.freeCount := rfl
@[simp] theorem Part.setTour_profile (p : Part) (t : TourNo) (x : Tour) : (p.setTour t x).profile = p.profile := rfl
@[simp] theorem Part.setTour_units (p : Part) (t : TourNo) (x : Tour) : (p.setTour t x).units = p.units := rfl
@[simp] theorem Part.setTour_zones (p : Part) (t : TourNo) (x : Tour) : (p.setTour t x).zones = p.zones := rfl
@[simp] theorem Part.setTour_frames (p : Part) (t : TourNo) (x : Tour) : (p.setTour t x).frames = p.frames := rfl
@[simp] theorem Part.setTour_house (p : Part) (t : TourNo) (x : Tour) : (p.setTour t x).house = p.house := rfl
@[simp] theorem Part.setTour_racks (p : Part) (t : TourNo) (x : Tour) : (p.setTour t x).racks = p.racks := rfl
@[simp] theorem Part.setTour_bus (p : Part) (t : TourNo) (x : Tour) : (p.setTour t x).bus = p.bus := rfl
@[simp] theorem Part.setTour_retireList (p : Part) (t : TourNo) (x : Tour) : (p.setTour t x).retireList = p.retireList := rfl
@[simp] theorem Part.setTour_queue (p : Part) (t : TourNo) (x : Tour) : (p.setTour t x).queue = p.queue := rfl
@[simp] theorem Part.setTour_lastJobNumber (p : Part) (t : TourNo) (x : Tour) : (p.setTour t x).lastJobNumber = p.lastJobNumber := rfl
@[simp] theorem Part.setTour_peakQueue (p : Part) (t : TourNo) (x : Tour) : (p.setTour t x).peakQueue = p.peakQueue := rfl
@[simp] theorem Part.setTour_channels (p : Part) (t : TourNo) (x : Tour) : (p.setTour t x).channels = p.channels := rfl
@[simp] theorem Part.setTour_listenerSlot (p : Part) (t : TourNo) (x : Tour) : (p.setTour t x).listenerSlot = p.listenerSlot := rfl
@[simp] theorem Part.setTour_voiceSlot (p : Part) (t : TourNo) (x : Tour) : (p.setTour t x).voiceSlot = p.voiceSlot := rfl
@[simp] theorem Part.setTour_issues (p : Part) (t : TourNo) (x : Tour) : (p.setTour t x).issues = p.issues := rfl
@[simp] theorem Part.setTour_store (p : Part) (t : TourNo) (x : Tour) : (p.setTour t x).store = p.store := rfl
@[simp] theorem Part.setTour_reports (p : Part) (t : TourNo) (x : Tour) : (p.setTour t x).reports = p.reports := rfl

/-! ### setZone -/

@[simp] theorem Part.setZone_now (p : Part) (z : ZoneNo) (x : Zone) : (p.setZone z x).now = p.now := rfl
@[simp] theorem Part.setZone_freeCount (p : Part) (z : ZoneNo) (x : Zone) : (p.setZone z x).freeCount = p.freeCount := rfl
@[simp] theorem Part.setZone_profile (p : Part) (z : ZoneNo) (x : Zone) : (p.setZone z x).profile = p.profile := rfl
@[simp] theorem Part.setZone_tours (p : Part) (z : ZoneNo) (x : Zone) : (p.setZone z x).tours = p.tours := rfl
@[simp] theorem Part.setZone_units (p : Part) (z : ZoneNo) (x : Zone) : (p.setZone z x).units = p.units := rfl
@[simp] theorem Part.setZone_frames (p : Part) (z : ZoneNo) (x : Zone) : (p.setZone z x).frames = p.frames := rfl
@[simp] theorem Part.setZone_house (p : Part) (z : ZoneNo) (x : Zone) : (p.setZone z x).house = p.house := rfl
@[simp] theorem Part.setZone_racks (p : Part) (z : ZoneNo) (x : Zone) : (p.setZone z x).racks = p.racks := rfl
@[simp] theorem Part.setZone_bus (p : Part) (z : ZoneNo) (x : Zone) : (p.setZone z x).bus = p.bus := rfl
@[simp] theorem Part.setZone_retireList (p : Part) (z : ZoneNo) (x : Zone) : (p.setZone z x).retireList = p.retireList := rfl
@[simp] theorem Part.setZone_queue (p : Part) (z : ZoneNo) (x : Zone) : (p.setZone z x).queue = p.queue := rfl
@[simp] theorem Part.setZone_lastJobNumber (p : Part) (z : ZoneNo) (x : Zone) : (p.setZone z x).lastJobNumber = p.lastJobNumber := rfl
@[simp] theorem Part.setZone_peakQueue (p : Part) (z : ZoneNo) (x : Zone) : (p.setZone z x).peakQueue = p.peakQueue := rfl
@[simp] theorem Part.setZone_channels (p : Part) (z : ZoneNo) (x : Zone) : (p.setZone z x).channels = p.channels := rfl
@[simp] theorem Part.setZone_listenerSlot (p : Part) (z : ZoneNo) (x : Zone) : (p.setZone z x).listenerSlot = p.listenerSlot := rfl
@[simp] theorem Part.setZone_voiceSlot (p : Part) (z : ZoneNo) (x : Zone) : (p.setZone z x).voiceSlot = p.voiceSlot := rfl
@[simp] theorem Part.setZone_issues (p : Part) (z : ZoneNo) (x : Zone) : (p.setZone z x).issues = p.issues := rfl
@[simp] theorem Part.setZone_store (p : Part) (z : ZoneNo) (x : Zone) : (p.setZone z x).store = p.store := rfl
@[simp] theorem Part.setZone_reports (p : Part) (z : ZoneNo) (x : Zone) : (p.setZone z x).reports = p.reports := rfl

/-! ### setRack -/

@[simp] theorem Part.setRack_now (p : Part) (r : RackNo) (x : Rack) : (p.setRack r x).now = p.now := rfl
@[simp] theorem Part.setRack_freeCount (p : Part) (r : RackNo) (x : Rack) : (p.setRack r x).freeCount = p.freeCount := rfl
@[simp] theorem Part.setRack_profile (p : Part) (r : RackNo) (x : Rack) : (p.setRack r x).profile = p.profile := rfl
@[simp] theorem Part.setRack_tours (p : Part) (r : RackNo) (x : Rack) : (p.setRack r x).tours = p.tours := rfl
@[simp] theorem Part.setRack_units (p : Part) (r : RackNo) (x : Rack) : (p.setRack r x).units = p.units := rfl
@[simp] theorem Part.setRack_zones (p : Part) (r : RackNo) (x : Rack) : (p.setRack r x).zones = p.zones := rfl
@[simp] theorem Part.setRack_frames (p : Part) (r : RackNo) (x : Rack) : (p.setRack r x).frames = p.frames := rfl
@[simp] theorem Part.setRack_house (p : Part) (r : RackNo) (x : Rack) : (p.setRack r x).house = p.house := rfl
@[simp] theorem Part.setRack_bus (p : Part) (r : RackNo) (x : Rack) : (p.setRack r x).bus = p.bus := rfl
@[simp] theorem Part.setRack_retireList (p : Part) (r : RackNo) (x : Rack) : (p.setRack r x).retireList = p.retireList := rfl
@[simp] theorem Part.setRack_queue (p : Part) (r : RackNo) (x : Rack) : (p.setRack r x).queue = p.queue := rfl
@[simp] theorem Part.setRack_lastJobNumber (p : Part) (r : RackNo) (x : Rack) : (p.setRack r x).lastJobNumber = p.lastJobNumber := rfl
@[simp] theorem Part.setRack_peakQueue (p : Part) (r : RackNo) (x : Rack) : (p.setRack r x).peakQueue = p.peakQueue := rfl
@[simp] theorem Part.setRack_channels (p : Part) (r : RackNo) (x : Rack) : (p.setRack r x).channels = p.channels := rfl
@[simp] theorem Part.setRack_listenerSlot (p : Part) (r : RackNo) (x : Rack) : (p.setRack r x).listenerSlot = p.listenerSlot := rfl
@[simp] theorem Part.setRack_voiceSlot (p : Part) (r : RackNo) (x : Rack) : (p.setRack r x).voiceSlot = p.voiceSlot := rfl
@[simp] theorem Part.setRack_issues (p : Part) (r : RackNo) (x : Rack) : (p.setRack r x).issues = p.issues := rfl
@[simp] theorem Part.setRack_store (p : Part) (r : RackNo) (x : Rack) : (p.setRack r x).store = p.store := rfl
@[simp] theorem Part.setRack_reports (p : Part) (r : RackNo) (x : Rack) : (p.setRack r x).reports = p.reports := rfl

/-! ### setChannel -/

@[simp] theorem Part.setChannel_now (p : Part) (c : ChannelNo) (x : Channel) : (p.setChannel c x).now = p.now := rfl
@[simp] theorem Part.setChannel_freeCount (p : Part) (c : ChannelNo) (x : Channel) : (p.setChannel c x).freeCount = p.freeCount := rfl
@[simp] theorem Part.setChannel_profile (p : Part) (c : ChannelNo) (x : Channel) : (p.setChannel c x).profile = p.profile := rfl
@[simp] theorem Part.setChannel_tours (p : Part) (c : ChannelNo) (x : Channel) : (p.setChannel c x).tours = p.tours := rfl
@[simp] theorem Part.setChannel_units (p : Part) (c : ChannelNo) (x : Channel) : (p.setChannel c x).units = p.units := rfl
@[simp] theorem Part.setChannel_zones (p : Part) (c : ChannelNo) (x : Channel) : (p.setChannel c x).zones = p.zones := rfl
@[simp] theorem Part.setChannel_frames (p : Part) (c : ChannelNo) (x : Channel) : (p.setChannel c x).frames = p.frames := rfl
@[simp] theorem Part.setChannel_house (p : Part) (c : ChannelNo) (x : Channel) : (p.setChannel c x).house = p.house := rfl
@[simp] theorem Part.setChannel_racks (p : Part) (c : ChannelNo) (x : Channel) : (p.setChannel c x).racks = p.racks := rfl
@[simp] theorem Part.setChannel_bus (p : Part) (c : ChannelNo) (x : Channel) : (p.setChannel c x).bus = p.bus := rfl
@[simp] theorem Part.setChannel_retireList (p : Part) (c : ChannelNo) (x : Channel) : (p.setChannel c x).retireList = p.retireList := rfl
@[simp] theorem Part.setChannel_queue (p : Part) (c : ChannelNo) (x : Channel) : (p.setChannel c x).queue = p.queue := rfl
@[simp] theorem Part.setChannel_lastJobNumber (p : Part) (c : ChannelNo) (x : Channel) : (p.setChannel c x).lastJobNumber = p.lastJobNumber := rfl
@[simp] theorem Part.setChannel_peakQueue (p : Part) (c : ChannelNo) (x : Channel) : (p.setChannel c x).peakQueue = p.peakQueue := rfl
@[simp] theorem Part.setChannel_listenerSlot (p : Part) (c : ChannelNo) (x : Channel) : (p.setChannel c x).listenerSlot = p.listenerSlot := rfl
@[simp] theorem Part.setChannel_voiceSlot (p : Part) (c : ChannelNo) (x : Channel) : (p.setChannel c x).voiceSlot = p.voiceSlot := rfl
@[simp] theorem Part.setChannel_issues (p : Part) (c : ChannelNo) (x : Channel) : (p.setChannel c x).issues = p.issues := rfl
@[simp] theorem Part.setChannel_store (p : Part) (c : ChannelNo) (x : Channel) : (p.setChannel c x).store = p.store := rfl
@[simp] theorem Part.setChannel_reports (p : Part) (c : ChannelNo) (x : Channel) : (p.setChannel c x).reports = p.reports := rfl

/-! ### setIssue -/

@[simp] theorem Part.setIssue_now (p : Part) (n : IssueNo) (x : Issue) : (p.setIssue n x).now = p.now := rfl
@[simp] theorem Part.setIssue_freeCount (p : Part) (n : IssueNo) (x : Issue) : (p.setIssue n x).freeCount = p.freeCount := rfl
@[simp] theorem Part.setIssue_profile (p : Part) (n : IssueNo) (x : Issue) : (p.setIssue n x).profile = p.profile := rfl
@[simp] theorem Part.setIssue_tours (p : Part) (n : IssueNo) (x : Issue) : (p.setIssue n x).tours = p.tours := rfl
@[simp] theorem Part.setIssue_units (p : Part) (n : IssueNo) (x : Issue) : (p.setIssue n x).units = p.units := rfl
@[simp] theorem Part.setIssue_zones (p : Part) (n : IssueNo) (x : Issue) : (p.setIssue n x).zones = p.zones := rfl
@[simp] theorem Part.setIssue_frames (p : Part) (n : IssueNo) (x : Issue) : (p.setIssue n x).frames = p.frames := rfl
@[simp] theorem Part.setIssue_house (p : Part) (n : IssueNo) (x : Issue) : (p.setIssue n x).house = p.house := rfl
@[simp] theorem Part.setIssue_racks (p : Part) (n : IssueNo) (x : Issue) : (p.setIssue n x).racks = p.racks := rfl
@[simp] theorem Part.setIssue_bus (p : Part) (n : IssueNo) (x : Issue) : (p.setIssue n x).bus = p.bus := rfl
@[simp] theorem Part.setIssue_retireList (p : Part) (n : IssueNo) (x : Issue) : (p.setIssue n x).retireList = p.retireList := rfl
@[simp] theorem Part.setIssue_queue (p : Part) (n : IssueNo) (x : Issue) : (p.setIssue n x).queue = p.queue := rfl
@[simp] theorem Part.setIssue_lastJobNumber (p : Part) (n : IssueNo) (x : Issue) : (p.setIssue n x).lastJobNumber = p.lastJobNumber := rfl
@[simp] theorem Part.setIssue_peakQueue (p : Part) (n : IssueNo) (x : Issue) : (p.setIssue n x).peakQueue = p.peakQueue := rfl
@[simp] theorem Part.setIssue_channels (p : Part) (n : IssueNo) (x : Issue) : (p.setIssue n x).channels = p.channels := rfl
@[simp] theorem Part.setIssue_listenerSlot (p : Part) (n : IssueNo) (x : Issue) : (p.setIssue n x).listenerSlot = p.listenerSlot := rfl
@[simp] theorem Part.setIssue_voiceSlot (p : Part) (n : IssueNo) (x : Issue) : (p.setIssue n x).voiceSlot = p.voiceSlot := rfl
@[simp] theorem Part.setIssue_store (p : Part) (n : IssueNo) (x : Issue) : (p.setIssue n x).store = p.store := rfl
@[simp] theorem Part.setIssue_reports (p : Part) (n : IssueNo) (x : Issue) : (p.setIssue n x).reports = p.reports := rfl

/-! ### modTour -/

@[simp] theorem Part.modTour_now (p : Part) (t : TourNo) (f : Tour → Tour) : (p.modTour t f).now = p.now := rfl
@[simp] theorem Part.modTour_freeCount (p : Part) (t : TourNo) (f : Tour → Tour) : (p.modTour t f).freeCount = p.freeCount := rfl
@[simp] theorem Part.modTour_profile (p : Part) (t : TourNo) (f : Tour → Tour) : (p.modTour t f).profile = p.profile := rfl
@[simp] theorem Part.modTour_units (p : Part) (t : TourNo) (f : Tour → Tour) : (p.modTour t f).units = p.units := rfl
@[simp] theorem Part.modTour_zones (p : Part) (t : TourNo) (f : Tour → Tour) : (p.modTour t f).zones = p.zones := rfl
@[simp] theorem Part.modTour_frames (p : Part) (t : TourNo) (f : Tour → Tour) : (p.modTour t f).frames = p.frames := rfl
@[simp] theorem Part.modTour_house (p : Part) (t : TourNo) (f : Tour → Tour) : (p.modTour t f).house = p.house := rfl
@[simp] theorem Part.modTour_racks (p : Part) (t : TourNo) (f : Tour → Tour) : (p.modTour t f).racks = p.racks := rfl
@[simp] theorem Part.modTour_bus (p : Part) (t : TourNo) (f : Tour → Tour) : (p.modTour t f).bus = p.bus := rfl
@[simp] theorem Part.modTour_retireList (p : Part) (t : TourNo) (f : Tour → Tour) : (p.modTour t f).retireList = p.retireList := rfl
@[simp] theorem Part.modTour_queue (p : Part) (t : TourNo) (f : Tour → Tour) : (p.modTour t f).queue = p.queue := rfl
@[simp] theorem Part.modTour_lastJobNumber (p : Part) (t : TourNo) (f : Tour → Tour) : (p.modTour t f).lastJobNumber = p.lastJobNumber := rfl
@[simp] theorem Part.modTour_peakQueue (p : Part) (t : TourNo) (f : Tour → Tour) : (p.modTour t f).peakQueue = p.peakQueue := rfl
@[simp] theorem Part.modTour_channels (p : Part) (t : TourNo) (f : Tour → Tour) : (p.modTour t f).channels = p.channels := rfl
@[simp] theorem Part.modTour_listenerSlot (p : Part) (t : TourNo) (f : Tour → Tour) : (p.modTour t f).listenerSlot = p.listenerSlot := rfl
@[simp] theorem Part.modTour_voiceSlot (p : Part) (t : TourNo) (f : Tour → Tour) : (p.modTour t f).voiceSlot = p.voiceSlot := rfl
@[simp] theorem Part.modTour_issues (p : Part) (t : TourNo) (f : Tour → Tour) : (p.modTour t f).issues = p.issues := rfl
@[simp] theorem Part.modTour_store (p : Part) (t : TourNo) (f : Tour → Tour) : (p.modTour t f).store = p.store := rfl
@[simp] theorem Part.modTour_reports (p : Part) (t : TourNo) (f : Tour → Tour) : (p.modTour t f).reports = p.reports := rfl

/-! ### modZone -/

@[simp] theorem Part.modZone_now (p : Part) (z : ZoneNo) (f : Zone → Zone) : (p.modZone z f).now = p.now := rfl
@[simp] theorem Part.modZone_freeCount (p : Part) (z : ZoneNo) (f : Zone → Zone) : (p.modZone z f).freeCount = p.freeCount := rfl
@[simp] theorem Part.modZone_profile (p : Part) (z : ZoneNo) (f : Zone → Zone) : (p.modZone z f).profile = p.profile := rfl
@[simp] theorem Part.modZone_tours (p : Part) (z : ZoneNo) (f : Zone → Zone) : (p.modZone z f).tours = p.tours := rfl
@[simp] theorem Part.modZone_units (p : Part) (z : ZoneNo) (f : Zone → Zone) : (p.modZone z f).units = p.units := rfl
@[simp] theorem Part.modZone_frames (p : Part) (z : ZoneNo) (f : Zone → Zone) : (p.modZone z f).frames = p.frames := rfl
@[simp] theorem Part.modZone_house (p : Part) (z : ZoneNo) (f : Zone → Zone) : (p.modZone z f).house = p.house := rfl
@[simp] theorem Part.modZone_racks (p : Part) (z : ZoneNo) (f : Zone → Zone) : (p.modZone z f).racks = p.racks := rfl
@[simp] theorem Part.modZone_bus (p : Part) (z : ZoneNo) (f : Zone → Zone) : (p.modZone z f).bus = p.bus := rfl
@[simp] theorem Part.modZone_retireList (p : Part) (z : ZoneNo) (f : Zone → Zone) : (p.modZone z f).retireList = p.retireList := rfl
@[simp] theorem Part.modZone_queue (p : Part) (z : ZoneNo) (f : Zone → Zone) : (p.modZone z f).queue = p.queue := rfl
@[simp] theorem Part.modZone_lastJobNumber (p : Part) (z : ZoneNo) (f : Zone → Zone) : (p.modZone z f).lastJobNumber = p.lastJobNumber := rfl
@[simp] theorem Part.modZone_peakQueue (p : Part) (z : ZoneNo) (f : Zone → Zone) : (p.modZone z f).peakQueue = p.peakQueue := rfl
@[simp] theorem Part.modZone_channels (p : Part) (z : ZoneNo) (f : Zone → Zone) : (p.modZone z f).channels = p.channels := rfl
@[simp] theorem Part.modZone_listenerSlot (p : Part) (z : ZoneNo) (f : Zone → Zone) : (p.modZone z f).listenerSlot = p.listenerSlot := rfl
@[simp] theorem Part.modZone_voiceSlot (p : Part) (z : ZoneNo) (f : Zone → Zone) : (p.modZone z f).voiceSlot = p.voiceSlot := rfl
@[simp] theorem Part.modZone_issues (p : Part) (z : ZoneNo) (f : Zone → Zone) : (p.modZone z f).issues = p.issues := rfl
@[simp] theorem Part.modZone_store (p : Part) (z : ZoneNo) (f : Zone → Zone) : (p.modZone z f).store = p.store := rfl
@[simp] theorem Part.modZone_reports (p : Part) (z : ZoneNo) (f : Zone → Zone) : (p.modZone z f).reports = p.reports := rfl

/-! ### modRack -/

@[simp] theorem Part.modRack_now (p : Part) (r : RackNo) (f : Rack → Rack) : (p.modRack r f).now = p.now := rfl
@[simp] theorem Part.modRack_freeCount (p : Part) (r : RackNo) (f : Rack → Rack) : (p.modRack r f).freeCount = p.freeCount := rfl
@[simp] theorem Part.modRack_profile (p : Part) (r : RackNo) (f : Rack → Rack) : (p.modRack r f).profile = p.profile := rfl
@[simp] theorem Part.modRack_tours (p : Part) (r : RackNo) (f : Rack → Rack) : (p.modRack r f).tours = p.tours := rfl
@[simp] theorem Part.modRack_units (p : Part) (r : RackNo) (f : Rack → Rack) : (p.modRack r f).units = p.units := rfl
@[simp] theorem Part.modRack_zones (p : Part) (r : RackNo) (f : Rack → Rack) : (p.modRack r f).zones = p.zones := rfl
@[simp] theorem Part.modRack_frames (p : Part) (r : RackNo) (f : Rack → Rack) : (p.modRack r f).frames = p.frames := rfl
@[simp] theorem Part.modRack_house (p : Part) (r : RackNo) (f : Rack → Rack) : (p.modRack r f).house = p.house := rfl
@[simp] theorem Part.modRack_bus (p : Part) (r : RackNo) (f : Rack → Rack) : (p.modRack r f).bus = p.bus := rfl
@[simp] theorem Part.modRack_retireList (p : Part) (r : RackNo) (f : Rack → Rack) : (p.modRack r f).retireList = p.retireList := rfl
@[simp] theorem Part.modRack_queue (p : Part) (r : RackNo) (f : Rack → Rack) : (p.modRack r f).queue = p.queue := rfl
@[simp] theorem Part.modRack_lastJobNumber (p : Part) (r : RackNo) (f : Rack → Rack) : (p.modRack r f).lastJobNumber = p.lastJobNumber := rfl
@[simp] theorem Part.modRack_peakQueue (p : Part) (r : RackNo) (f : Rack → Rack) : (p.modRack r f).peakQueue = p.peakQueue := rfl
@[simp] theorem Part.modRack_channels (p : Part) (r : RackNo) (f : Rack → Rack) : (p.modRack r f).channels = p.channels := rfl
@[simp] theorem Part.modRack_listenerSlot (p : Part) (r : RackNo) (f : Rack → Rack) : (p.modRack r f).listenerSlot = p.listenerSlot := rfl
@[simp] theorem Part.modRack_voiceSlot (p : Part) (r : RackNo) (f : Rack → Rack) : (p.modRack r f).voiceSlot = p.voiceSlot := rfl
@[simp] theorem Part.modRack_issues (p : Part) (r : RackNo) (f : Rack → Rack) : (p.modRack r f).issues = p.issues := rfl
@[simp] theorem Part.modRack_store (p : Part) (r : RackNo) (f : Rack → Rack) : (p.modRack r f).store = p.store := rfl
@[simp] theorem Part.modRack_reports (p : Part) (r : RackNo) (f : Rack → Rack) : (p.modRack r f).reports = p.reports := rfl

/-! ### modChannel -/

@[simp] theorem Part.modChannel_now (p : Part) (c : ChannelNo) (f : Channel → Channel) : (p.modChannel c f).now = p.now := rfl
@[simp] theorem Part.modChannel_freeCount (p : Part) (c : ChannelNo) (f : Channel → Channel) : (p.modChannel c f).freeCount = p.freeCount := rfl
@[simp] theorem Part.modChannel_profile (p : Part) (c : ChannelNo) (f : Channel → Channel) : (p.modChannel c f).profile = p.profile := rfl
@[simp] theorem Part.modChannel_tours (p : Part) (c : ChannelNo) (f : Channel → Channel) : (p.modChannel c f).tours = p.tours := rfl
@[simp] theorem Part.modChannel_units (p : Part) (c : ChannelNo) (f : Channel → Channel) : (p.modChannel c f).units = p.units := rfl
@[simp] theorem Part.modChannel_zones (p : Part) (c : ChannelNo) (f : Channel → Channel) : (p.modChannel c f).zones = p.zones := rfl
@[simp] theorem Part.modChannel_frames (p : Part) (c : ChannelNo) (f : Channel → Channel) : (p.modChannel c f).frames = p.frames := rfl
@[simp] theorem Part.modChannel_house (p : Part) (c : ChannelNo) (f : Channel → Channel) : (p.modChannel c f).house = p.house := rfl
@[simp] theorem Part.modChannel_racks (p : Part) (c : ChannelNo) (f : Channel → Channel) : (p.modChannel c f).racks = p.racks := rfl
@[simp] theorem Part.modChannel_bus (p : Part) (c : ChannelNo) (f : Channel → Channel) : (p.modChannel c f).bus = p.bus := rfl
@[simp] theorem Part.modChannel_retireList (p : Part) (c : ChannelNo) (f : Channel → Channel) : (p.modChannel c f).retireList = p.retireList := rfl
@[simp] theorem Part.modChannel_queue (p : Part) (c : ChannelNo) (f : Channel → Channel) : (p.modChannel c f).queue = p.queue := rfl
@[simp] theorem Part.modChannel_lastJobNumber (p : Part) (c : ChannelNo) (f : Channel → Channel) : (p.modChannel c f).lastJobNumber = p.lastJobNumber := rfl
@[simp] theorem Part.modChannel_peakQueue (p : Part) (c : ChannelNo) (f : Channel → Channel) : (p.modChannel c f).peakQueue = p.peakQueue := rfl
@[simp] theorem Part.modChannel_listenerSlot (p : Part) (c : ChannelNo) (f : Channel → Channel) : (p.modChannel c f).listenerSlot = p.listenerSlot := rfl
@[simp] theorem Part.modChannel_voiceSlot (p : Part) (c : ChannelNo) (f : Channel → Channel) : (p.modChannel c f).voiceSlot = p.voiceSlot := rfl
@[simp] theorem Part.modChannel_issues (p : Part) (c : ChannelNo) (f : Channel → Channel) : (p.modChannel c f).issues = p.issues := rfl
@[simp] theorem Part.modChannel_store (p : Part) (c : ChannelNo) (f : Channel → Channel) : (p.modChannel c f).store = p.store := rfl
@[simp] theorem Part.modChannel_reports (p : Part) (c : ChannelNo) (f : Channel → Channel) : (p.modChannel c f).reports = p.reports := rfl

/-! ### modIssue -/

@[simp] theorem Part.modIssue_now (p : Part) (n : IssueNo) (f : Issue → Issue) : (p.modIssue n f).now = p.now := rfl
@[simp] theorem Part.modIssue_freeCount (p : Part) (n : IssueNo) (f : Issue → Issue) : (p.modIssue n f).freeCount = p.freeCount := rfl
@[simp] theorem Part.modIssue_profile (p : Part) (n : IssueNo) (f : Issue → Issue) : (p.modIssue n f).profile = p.profile := rfl
@[simp] theorem Part.modIssue_tours (p : Part) (n : IssueNo) (f : Issue → Issue) : (p.modIssue n f).tours = p.tours := rfl
@[simp] theorem Part.modIssue_units (p : Part) (n : IssueNo) (f : Issue → Issue) : (p.modIssue n f).units = p.units := rfl
@[simp] theorem Part.modIssue_zones (p : Part) (n : IssueNo) (f : Issue → Issue) : (p.modIssue n f).zones = p.zones := rfl
@[simp] theorem Part.modIssue_frames (p : Part) (n : IssueNo) (f : Issue → Issue) : (p.modIssue n f).frames = p.frames := rfl
@[simp] theorem Part.modIssue_house (p : Part) (n : IssueNo) (f : Issue → Issue) : (p.modIssue n f).house = p.house := rfl
@[simp] theorem Part.modIssue_racks (p : Part) (n : IssueNo) (f : Issue → Issue) : (p.modIssue n f).racks = p.racks := rfl
@[simp] theorem Part.modIssue_bus (p : Part) (n : IssueNo) (f : Issue → Issue) : (p.modIssue n f).bus = p.bus := rfl
@[simp] theorem Part.modIssue_retireList (p : Part) (n : IssueNo) (f : Issue → Issue) : (p.modIssue n f).retireList = p.retireList := rfl
@[simp] theorem Part.modIssue_queue (p : Part) (n : IssueNo) (f : Issue → Issue) : (p.modIssue n f).queue = p.queue := rfl
@[simp] theorem Part.modIssue_lastJobNumber (p : Part) (n : IssueNo) (f : Issue → Issue) : (p.modIssue n f).lastJobNumber = p.lastJobNumber := rfl
@[simp] theorem Part.modIssue_peakQueue (p : Part) (n : IssueNo) (f : Issue → Issue) : (p.modIssue n f).peakQueue = p.peakQueue := rfl
@[simp] theorem Part.modIssue_channels (p : Part) (n : IssueNo) (f : Issue → Issue) : (p.modIssue n f).channels = p.channels := rfl
@[simp] theorem Part.modIssue_listenerSlot (p : Part) (n : IssueNo) (f : Issue → Issue) : (p.modIssue n f).listenerSlot = p.listenerSlot := rfl
@[simp] theorem Part.modIssue_voiceSlot (p : Part) (n : IssueNo) (f : Issue → Issue) : (p.modIssue n f).voiceSlot = p.voiceSlot := rfl
@[simp] theorem Part.modIssue_store (p : Part) (n : IssueNo) (f : Issue → Issue) : (p.modIssue n f).store = p.store := rfl
@[simp] theorem Part.modIssue_reports (p : Part) (n : IssueNo) (f : Issue → Issue) : (p.modIssue n f).reports = p.reports := rfl

/-! ### setBay -/

@[simp] theorem Part.setBay_now (p : Part) (b : BayRef) (y : Bay) : (p.setBay b y).now = p.now := rfl
@[simp] theorem Part.setBay_freeCount (p : Part) (b : BayRef) (y : Bay) : (p.setBay b y).freeCount = p.freeCount := rfl
@[simp] theorem Part.setBay_profile (p : Part) (b : BayRef) (y : Bay) : (p.setBay b y).profile = p.profile := rfl
@[simp] theorem Part.setBay_tours (p : Part) (b : BayRef) (y : Bay) : (p.setBay b y).tours = p.tours := rfl
@[simp] theorem Part.setBay_units (p : Part) (b : BayRef) (y : Bay) : (p.setBay b y).units = p.units := rfl
@[simp] theorem Part.setBay_zones (p : Part) (b : BayRef) (y : Bay) : (p.setBay b y).zones = p.zones := rfl
@[simp] theorem Part.setBay_frames (p : Part) (b : BayRef) (y : Bay) : (p.setBay b y).frames = p.frames := rfl
@[simp] theorem Part.setBay_house (p : Part) (b : BayRef) (y : Bay) : (p.setBay b y).house = p.house := rfl
@[simp] theorem Part.setBay_bus (p : Part) (b : BayRef) (y : Bay) : (p.setBay b y).bus = p.bus := rfl
@[simp] theorem Part.setBay_retireList (p : Part) (b : BayRef) (y : Bay) : (p.setBay b y).retireList = p.retireList := rfl
@[simp] theorem Part.setBay_queue (p : Part) (b : BayRef) (y : Bay) : (p.setBay b y).queue = p.queue := rfl
@[simp] theorem Part.setBay_lastJobNumber (p : Part) (b : BayRef) (y : Bay) : (p.setBay b y).lastJobNumber = p.lastJobNumber := rfl
@[simp] theorem Part.setBay_peakQueue (p : Part) (b : BayRef) (y : Bay) : (p.setBay b y).peakQueue = p.peakQueue := rfl
@[simp] theorem Part.setBay_channels (p : Part) (b : BayRef) (y : Bay) : (p.setBay b y).channels = p.channels := rfl
@[simp] theorem Part.setBay_listenerSlot (p : Part) (b : BayRef) (y : Bay) : (p.setBay b y).listenerSlot = p.listenerSlot := rfl
@[simp] theorem Part.setBay_voiceSlot (p : Part) (b : BayRef) (y : Bay) : (p.setBay b y).voiceSlot = p.voiceSlot := rfl
@[simp] theorem Part.setBay_issues (p : Part) (b : BayRef) (y : Bay) : (p.setBay b y).issues = p.issues := rfl
@[simp] theorem Part.setBay_store (p : Part) (b : BayRef) (y : Bay) : (p.setBay b y).store = p.store := rfl
@[simp] theorem Part.setBay_reports (p : Part) (b : BayRef) (y : Bay) : (p.setBay b y).reports = p.reports := rfl

/-! ### modBay -/

@[simp] theorem Part.modBay_now (p : Part) (b : BayRef) (f : Bay → Bay) : (p.modBay b f).now = p.now := rfl
@[simp] theorem Part.modBay_freeCount (p : Part) (b : BayRef) (f : Bay → Bay) : (p.modBay b f).freeCount = p.freeCount := rfl
@[simp] theorem Part.modBay_profile (p : Part) (b : BayRef) (f : Bay → Bay) : (p.modBay b f).profile = p.profile := rfl
@[simp] theorem Part.modBay_tours (p : Part) (b : BayRef) (f : Bay → Bay) : (p.modBay b f).tours = p.tours := rfl
@[simp] theorem Part.modBay_units (p : Part) (b : BayRef) (f : Bay → Bay) : (p.modBay b f).units = p.units := rfl
@[simp] theorem Part.modBay_zones (p : Part) (b : BayRef) (f : Bay → Bay) : (p.modBay b f).zones = p.zones := rfl
@[simp] theorem Part.modBay_frames (p : Part) (b : BayRef) (f : Bay → Bay) : (p.modBay b f).frames = p.frames := rfl
@[simp] theorem Part.modBay_house (p : Part) (b : BayRef) (f : Bay → Bay) : (p.modBay b f).house = p.house := rfl
@[simp] theorem Part.modBay_bus (p : Part) (b : BayRef) (f : Bay → Bay) : (p.modBay b f).bus = p.bus := rfl
@[simp] theorem Part.modBay_retireList (p : Part) (b : BayRef) (f : Bay → Bay) : (p.modBay b f).retireList = p.retireList := rfl
@[simp] theorem Part.modBay_queue (p : Part) (b : BayRef) (f : Bay → Bay) : (p.modBay b f).queue = p.queue := rfl
@[simp] theorem Part.modBay_lastJobNumber (p : Part) (b : BayRef) (f : Bay → Bay) : (p.modBay b f).lastJobNumber = p.lastJobNumber := rfl
@[simp] theorem Part.modBay_peakQueue (p : Part) (b : BayRef) (f : Bay → Bay) : (p.modBay b f).peakQueue = p.peakQueue := rfl
@[simp] theorem Part.modBay_channels (p : Part) (b : BayRef) (f : Bay → Bay) : (p.modBay b f).channels = p.channels := rfl
@[simp] theorem Part.modBay_listenerSlot (p : Part) (b : BayRef) (f : Bay → Bay) : (p.modBay b f).listenerSlot = p.listenerSlot := rfl
@[simp] theorem Part.modBay_voiceSlot (p : Part) (b : BayRef) (f : Bay → Bay) : (p.modBay b f).voiceSlot = p.voiceSlot := rfl
@[simp] theorem Part.modBay_issues (p : Part) (b : BayRef) (f : Bay → Bay) : (p.modBay b f).issues = p.issues := rfl
@[simp] theorem Part.modBay_store (p : Part) (b : BayRef) (f : Bay → Bay) : (p.modBay b f).store = p.store := rfl
@[simp] theorem Part.modBay_reports (p : Part) (b : BayRef) (f : Bay → Bay) : (p.modBay b f).reports = p.reports := rfl

/-! ### modEntry -/

@[simp] theorem Part.modEntry_now (p : Part) (u : UnitId) (f : Entry → Entry) : (p.modEntry u f).now = p.now := rfl
@[simp] theorem Part.modEntry_freeCount (p : Part) (u : UnitId) (f : Entry → Entry) : (p.modEntry u f).freeCount = p.freeCount := rfl
@[simp] theorem Part.modEntry_profile (p : Part) (u : UnitId) (f : Entry → Entry) : (p.modEntry u f).profile = p.profile := rfl
@[simp] theorem Part.modEntry_tours (p : Part) (u : UnitId) (f : Entry → Entry) : (p.modEntry u f).tours = p.tours := rfl
@[simp] theorem Part.modEntry_zones (p : Part) (u : UnitId) (f : Entry → Entry) : (p.modEntry u f).zones = p.zones := rfl
@[simp] theorem Part.modEntry_frames (p : Part) (u : UnitId) (f : Entry → Entry) : (p.modEntry u f).frames = p.frames := rfl
@[simp] theorem Part.modEntry_house (p : Part) (u : UnitId) (f : Entry → Entry) : (p.modEntry u f).house = p.house := rfl
@[simp] theorem Part.modEntry_racks (p : Part) (u : UnitId) (f : Entry → Entry) : (p.modEntry u f).racks = p.racks := rfl
@[simp] theorem Part.modEntry_bus (p : Part) (u : UnitId) (f : Entry → Entry) : (p.modEntry u f).bus = p.bus := rfl
@[simp] theorem Part.modEntry_retireList (p : Part) (u : UnitId) (f : Entry → Entry) : (p.modEntry u f).retireList = p.retireList := rfl
@[simp] theorem Part.modEntry_queue (p : Part) (u : UnitId) (f : Entry → Entry) : (p.modEntry u f).queue = p.queue := rfl
@[simp] theorem Part.modEntry_lastJobNumber (p : Part) (u : UnitId) (f : Entry → Entry) : (p.modEntry u f).lastJobNumber = p.lastJobNumber := rfl
@[simp] theorem Part.modEntry_peakQueue (p : Part) (u : UnitId) (f : Entry → Entry) : (p.modEntry u f).peakQueue = p.peakQueue := rfl
@[simp] theorem Part.modEntry_channels (p : Part) (u : UnitId) (f : Entry → Entry) : (p.modEntry u f).channels = p.channels := rfl
@[simp] theorem Part.modEntry_listenerSlot (p : Part) (u : UnitId) (f : Entry → Entry) : (p.modEntry u f).listenerSlot = p.listenerSlot := rfl
@[simp] theorem Part.modEntry_voiceSlot (p : Part) (u : UnitId) (f : Entry → Entry) : (p.modEntry u f).voiceSlot = p.voiceSlot := rfl
@[simp] theorem Part.modEntry_issues (p : Part) (u : UnitId) (f : Entry → Entry) : (p.modEntry u f).issues = p.issues := rfl
@[simp] theorem Part.modEntry_store (p : Part) (u : UnitId) (f : Entry → Entry) : (p.modEntry u f).store = p.store := rfl
@[simp] theorem Part.modEntry_reports (p : Part) (u : UnitId) (f : Entry → Entry) : (p.modEntry u f).reports = p.reports := rfl

/-! ### addEntry -/

@[simp] theorem Part.addEntry_now (p : Part) (i : Nat) (e : Entry) : (p.addEntry i e).now = p.now := rfl
@[simp] theorem Part.addEntry_freeCount (p : Part) (i : Nat) (e : Entry) : (p.addEntry i e).freeCount = p.freeCount := rfl
@[simp] theorem Part.addEntry_profile (p : Part) (i : Nat) (e : Entry) : (p.addEntry i e).profile = p.profile := rfl
@[simp] theorem Part.addEntry_tours (p : Part) (i : Nat) (e : Entry) : (p.addEntry i e).tours = p.tours := rfl
@[simp] theorem Part.addEntry_zones (p : Part) (i : Nat) (e : Entry) : (p.addEntry i e).zones = p.zones := rfl
@[simp] theorem Part.addEntry_frames (p : Part) (i : Nat) (e : Entry) : (p.addEntry i e).frames = p.frames := rfl
@[simp] theorem Part.addEntry_house (p : Part) (i : Nat) (e : Entry) : (p.addEntry i e).house = p.house := rfl
@[simp] theorem Part.addEntry_racks (p : Part) (i : Nat) (e : Entry) : (p.addEntry i e).racks = p.racks := rfl
@[simp] theorem Part.addEntry_bus (p : Part) (i : Nat) (e : Entry) : (p.addEntry i e).bus = p.bus := rfl
@[simp] theorem Part.addEntry_retireList (p : Part) (i : Nat) (e : Entry) : (p.addEntry i e).retireList = p.retireList := rfl
@[simp] theorem Part.addEntry_queue (p : Part) (i : Nat) (e : Entry) : (p.addEntry i e).queue = p.queue := rfl
@[simp] theorem Part.addEntry_lastJobNumber (p : Part) (i : Nat) (e : Entry) : (p.addEntry i e).lastJobNumber = p.lastJobNumber := rfl
@[simp] theorem Part.addEntry_peakQueue (p : Part) (i : Nat) (e : Entry) : (p.addEntry i e).peakQueue = p.peakQueue := rfl
@[simp] theorem Part.addEntry_channels (p : Part) (i : Nat) (e : Entry) : (p.addEntry i e).channels = p.channels := rfl
@[simp] theorem Part.addEntry_listenerSlot (p : Part) (i : Nat) (e : Entry) : (p.addEntry i e).listenerSlot = p.listenerSlot := rfl
@[simp] theorem Part.addEntry_voiceSlot (p : Part) (i : Nat) (e : Entry) : (p.addEntry i e).voiceSlot = p.voiceSlot := rfl
@[simp] theorem Part.addEntry_issues (p : Part) (i : Nat) (e : Entry) : (p.addEntry i e).issues = p.issues := rfl
@[simp] theorem Part.addEntry_store (p : Part) (i : Nat) (e : Entry) : (p.addEntry i e).store = p.store := rfl
@[simp] theorem Part.addEntry_reports (p : Part) (i : Nat) (e : Entry) : (p.addEntry i e).reports = p.reports := rfl

/-! ### removeEntry -/

@[simp] theorem Part.removeEntry_now (p : Part) (u : UnitId) : (p.removeEntry u).now = p.now := rfl
@[simp] theorem Part.removeEntry_freeCount (p : Part) (u : UnitId) : (p.removeEntry u).freeCount = p.freeCount := rfl
@[simp] theorem Part.removeEntry_profile (p : Part) (u : UnitId) : (p.removeEntry u).profile = p.profile := rfl
@[simp] theorem Part.removeEntry_tours (p : Part) (u : UnitId) : (p.removeEntry u).tours = p.tours := rfl
@[simp] theorem Part.removeEntry_zones (p : Part) (u : UnitId) : (p.removeEntry u).zones = p.zones := rfl
@[simp] theorem Part.removeEntry_frames (p : Part) (u : UnitId) : (p.removeEntry u).frames = p.frames := rfl
@[simp] theorem Part.removeEntry_house (p : Part) (u : UnitId) : (p.removeEntry u).house = p.house := rfl
@[simp] theorem Part.removeEntry_racks (p : Part) (u : UnitId) : (p.removeEntry u).racks = p.racks := rfl
@[simp] theorem Part.removeEntry_bus (p : Part) (u : UnitId) : (p.removeEntry u).bus = p.bus := rfl
@[simp] theorem Part.removeEntry_retireList (p : Part) (u : UnitId) : (p.removeEntry u).retireList = p.retireList := rfl
@[simp] theorem Part.removeEntry_queue (p : Part) (u : UnitId) : (p.removeEntry u).queue = p.queue := rfl
@[simp] theorem Part.removeEntry_lastJobNumber (p : Part) (u : UnitId) : (p.removeEntry u).lastJobNumber = p.lastJobNumber := rfl
@[simp] theorem Part.removeEntry_peakQueue (p : Part) (u : UnitId) : (p.removeEntry u).peakQueue = p.peakQueue := rfl
@[simp] theorem Part.removeEntry_channels (p : Part) (u : UnitId) : (p.removeEntry u).channels = p.channels := rfl
@[simp] theorem Part.removeEntry_listenerSlot (p : Part) (u : UnitId) : (p.removeEntry u).listenerSlot = p.listenerSlot := rfl
@[simp] theorem Part.removeEntry_voiceSlot (p : Part) (u : UnitId) : (p.removeEntry u).voiceSlot = p.voiceSlot := rfl
@[simp] theorem Part.removeEntry_issues (p : Part) (u : UnitId) : (p.removeEntry u).issues = p.issues := rfl
@[simp] theorem Part.removeEntry_store (p : Part) (u : UnitId) : (p.removeEntry u).store = p.store := rfl
@[simp] theorem Part.removeEntry_reports (p : Part) (u : UnitId) : (p.removeEntry u).reports = p.reports := rfl

/-! ### Reading a table after an update -/

@[simp] theorem Part.tour_setTour_same (p : Part) (i : TourNo) (x : Tour) : (p.setTour i x).tour i = x := by
  simp [Part.tour, Part.setTour]

theorem Part.tour_setTour_other (p : Part) (i j : TourNo) (x : Tour) (h : j ≠ i) :
    (p.setTour i x).tour j = p.tour j := by
  have h' : i.val ≠ j.val := fun e => h (Fin.ext e.symm)
  simp [Part.tour, Part.setTour, h']

@[simp] theorem Part.tour_modTour_same (p : Part) (i : TourNo) (f : Tour → Tour) :
    (p.modTour i f).tour i = f (p.tour i) := Part.tour_setTour_same p i _

theorem Part.tour_modTour_other (p : Part) (i j : TourNo) (f : Tour → Tour) (h : j ≠ i) :
    (p.modTour i f).tour j = p.tour j := Part.tour_setTour_other p i j _ h

@[simp] theorem Part.zone_setZone_same (p : Part) (i : ZoneNo) (x : Zone) : (p.setZone i x).zone i = x := by
  simp [Part.zone, Part.setZone]

theorem Part.zone_setZone_other (p : Part) (i j : ZoneNo) (x : Zone) (h : j ≠ i) :
    (p.setZone i x).zone j = p.zone j := by
  have h' : i.val ≠ j.val := fun e => h (Fin.ext e.symm)
  simp [Part.zone, Part.setZone, h']

@[simp] theorem Part.zone_modZone_same (p : Part) (i : ZoneNo) (f : Zone → Zone) :
    (p.modZone i f).zone i = f (p.zone i) := Part.zone_setZone_same p i _

theorem Part.zone_modZone_other (p : Part) (i j : ZoneNo) (f : Zone → Zone) (h : j ≠ i) :
    (p.modZone i f).zone j = p.zone j := Part.zone_setZone_other p i j _ h

@[simp] theorem Part.rack_setRack_same (p : Part) (i : RackNo) (x : Rack) : (p.setRack i x).rack i = x := by
  simp [Part.rack, Part.setRack]

theorem Part.rack_setRack_other (p : Part) (i j : RackNo) (x : Rack) (h : j ≠ i) :
    (p.setRack i x).rack j = p.rack j := by
  have h' : i.val ≠ j.val := fun e => h (Fin.ext e.symm)
  simp [Part.rack, Part.setRack, h']

@[simp] theorem Part.rack_modRack_same (p : Part) (i : RackNo) (f : Rack → Rack) :
    (p.modRack i f).rack i = f (p.rack i) := Part.rack_setRack_same p i _

theorem Part.rack_modRack_other (p : Part) (i j : RackNo) (f : Rack → Rack) (h : j ≠ i) :
    (p.modRack i f).rack j = p.rack j := Part.rack_setRack_other p i j _ h

@[simp] theorem Part.channel_setChannel_same (p : Part) (i : ChannelNo) (x : Channel) : (p.setChannel i x).channel i = x := by
  simp [Part.channel, Part.setChannel]

theorem Part.channel_setChannel_other (p : Part) (i j : ChannelNo) (x : Channel) (h : j ≠ i) :
    (p.setChannel i x).channel j = p.channel j := by
  have h' : i.val ≠ j.val := fun e => h (Fin.ext e.symm)
  simp [Part.channel, Part.setChannel, h']

@[simp] theorem Part.channel_modChannel_same (p : Part) (i : ChannelNo) (f : Channel → Channel) :
    (p.modChannel i f).channel i = f (p.channel i) := Part.channel_setChannel_same p i _

theorem Part.channel_modChannel_other (p : Part) (i j : ChannelNo) (f : Channel → Channel) (h : j ≠ i) :
    (p.modChannel i f).channel j = p.channel j := Part.channel_setChannel_other p i j _ h

@[simp] theorem Part.issue_setIssue_same (p : Part) (i : IssueNo) (x : Issue) : (p.setIssue i x).issue i = x := by
  simp [Part.issue, Part.setIssue]

theorem Part.issue_setIssue_other (p : Part) (i j : IssueNo) (x : Issue) (h : j ≠ i) :
    (p.setIssue i x).issue j = p.issue j := by
  have h' : i.val ≠ j.val := fun e => h (Fin.ext e.symm)
  simp [Part.issue, Part.setIssue, h']

@[simp] theorem Part.issue_modIssue_same (p : Part) (i : IssueNo) (f : Issue → Issue) :
    (p.modIssue i f).issue i = f (p.issue i) := Part.issue_setIssue_same p i _

theorem Part.issue_modIssue_other (p : Part) (i j : IssueNo) (f : Issue → Issue) (h : j ≠ i) :
    (p.modIssue i f).issue j = p.issue j := Part.issue_setIssue_other p i j _ h

@[simp] theorem Rack.bay_setBay_same (k : Rack) (b : BayNo) (x : Bay) : (k.setBay b x).bay b = x := by
  simp [Rack.bay, Rack.setBay]

theorem Rack.bay_setBay_other (k : Rack) (b d : BayNo) (x : Bay) (h : d ≠ b) :
    (k.setBay b x).bay d = k.bay d := by
  have h' : b.val ≠ d.val := fun e => h (Fin.ext e.symm)
  simp [Rack.bay, Rack.setBay, h']

@[simp] theorem Part.bay_setBay_same (p : Part) (b : BayRef) (x : Bay) : (p.setBay b x).bay b = x := by
  simp [Part.bay, Part.setBay]

theorem Part.bay_setBay_other (p : Part) (b d : BayRef) (x : Bay) (h : d ≠ b) :
    (p.setBay b x).bay d = p.bay d := by
  obtain ⟨br, bn⟩ := b
  obtain ⟨dr, dn⟩ := d
  by_cases hr : dr = br
  · subst hr
    have hn : dn ≠ bn := fun e => h (by rw [e])
    simp [Part.bay, Part.setBay, Rack.bay_setBay_other _ _ _ _ hn]
  · simp [Part.bay, Part.setBay, Part.rack_modRack_other _ _ _ _ hr]

@[simp] theorem Part.bay_modBay_same (p : Part) (b : BayRef) (f : Bay → Bay) :
    (p.modBay b f).bay b = f (p.bay b) := Part.bay_setBay_same p b _

theorem Part.bay_modBay_other (p : Part) (b d : BayRef) (f : Bay → Bay) (h : d ≠ b) :
    (p.modBay b f).bay d = p.bay d := Part.bay_setBay_other p b d _ h

/-- An image slot's header after it is set. -/
@[simp] theorem Part.slot_setSlot_same (p : Part) (c : UnitClass) (h : ImageHeader) :
    (p.setSlot c h).slot c = h := by cases c <;> rfl

theorem Part.slot_setSlot_other (p : Part) (c d : UnitClass) (h : ImageHeader) (n : d ≠ c) :
    (p.setSlot c h).slot d = p.slot d := by cases c <;> cases d <;> first | rfl | exact absurd rfl n

@[simp] theorem Nv.image_setImage_same (n : Nv) (c : UnitClass) (m : Memory) :
    (n.setImage c m).image c = m := by cases c <;> rfl

theorem Nv.image_setImage_other (n : Nv) (c d : UnitClass) (m : Memory) (h : d ≠ c) :
    (n.setImage c m).image d = n.image d := by cases c <;> cases d <;> first | rfl | exact absurd rfl h

end Sys2Proof.Machine
end

