-- ==== Sys2Proof/Laws/Frames.lean ====
section
/-! SUPPORT. The frame relations are reflexive and transitive, each finer one is contained in the coarser
ones, and a fold of steps is a step. -/

namespace Sys2Proof.Machine

/-- A fold of steps of a reflexive and transitive relation is a step. -/
theorem foldl_step {R : Part → Part → Prop} (hr : ∀ p, R p p) (ht : ∀ {p q r}, R p q → R q r → R p r)
    {α : Type} {f : Part → α → Part} (h : ∀ q a, R q (f q a)) : ∀ (l : List α) (p : Part), R p (l.foldl f p)
  | [], p => hr p
  | a :: l, p => ht (h p a) (foldl_step hr ht h l (f p a))

/-! ### ReportStep -/

theorem ReportStep.refl (p : Part) : ReportStep p p := rfl

theorem ReportStep.trans {p q r : Part} (h1 : ReportStep p q) (h2 : ReportStep q r) : ReportStep p r :=
  Eq.trans h2 (congrArg (fun x : Part => { x with reports := r.reports }) h1)

theorem ReportStep.raiseWith (p : Part) (s : Source) (k : EventKind) (f : Attached → Attached) :
    ReportStep p (p.raiseWith s k f) := by
  unfold Part.raiseWith
  split <;> rfl

theorem ReportStep.raise (p : Part) (s : Source) (k : EventKind) : ReportStep p (p.raise s k) :=
  ReportStep.raiseWith p s k id

theorem ReportStep.raiseUnit (p : Part) (u : UnitId) (k : EventKind) (f : Attached → Attached) :
    ReportStep p (p.raiseUnit u k f) := by
  unfold Part.raiseUnit
  split
  · exact ReportStep.raiseWith p _ k f
  · rfl

/-! ### ZoneStep -/

theorem ZoneStep.refl (p : Part) : ZoneStep p p := rfl

theorem ZoneStep.trans {p q r : Part} (h1 : ZoneStep p q) (h2 : ZoneStep q r) : ZoneStep p r :=
  Eq.trans h2 (congrArg (fun x : Part => { x with zones := r.zones, reports := r.reports }) h1)

theorem ReportStep.toZone {p q : Part} (h : ReportStep p q) : ZoneStep p q := by
  unfold ReportStep at h; unfold ZoneStep; rw [h]

theorem ZoneStep.foldl {α : Type} {f : Part → α → Part} (h : ∀ q a, ZoneStep q (f q a)) (l : List α)
    (p : Part) : ZoneStep p (l.foldl f p) := foldl_step ZoneStep.refl ZoneStep.trans h l p

/-! ### AirStep -/

theorem AirStep.refl (p : Part) : AirStep p p := rfl

theorem AirStep.trans {p q r : Part} (h1 : AirStep p q) (h2 : AirStep q r) : AirStep p r :=
  Eq.trans h2 (congrArg (fun x : Part =>
    { x with tours := r.tours, units := r.units, zones := r.zones, frames := r.frames, reports := r.reports }) h1)

theorem ZoneStep.toAir {p q : Part} (h : ZoneStep p q) : AirStep p q := by
  unfold ZoneStep at h; unfold AirStep; rw [h]

theorem ReportStep.toAir {p q : Part} (h : ReportStep p q) : AirStep p q := h.toZone.toAir

theorem AirStep.foldl {α : Type} {f : Part → α → Part} (h : ∀ q a, AirStep q (f q a)) (l : List α)
    (p : Part) : AirStep p (l.foldl f p) := foldl_step AirStep.refl AirStep.trans h l p

/-! ### EngineStep -/

theorem EngineStep.refl (p : Part) : EngineStep p p := ⟨rfl, rfl, rfl, fun _ => rfl⟩

theorem EngineStep.trans {p q r : Part} (h1 : EngineStep p q) (h2 : EngineStep q r) : EngineStep p r := by
  refine ⟨Eq.trans h2.1 (congrArg (fun x : Part =>
    { x with
      racks := r.racks, bus := r.bus, queue := r.queue, lastJobNumber := r.lastJobNumber
      peakQueue := r.peakQueue, channels := r.channels, store := r.store, reports := r.reports }) h1.1),
    h2.2.1.trans h1.2.1,
    Eq.trans h2.2.2.1 (congrArg (fun x : Engine =>
      { x with op := r.store.op, retireDirty := r.store.retireDirty, corrected := r.store.corrected }) h1.2.2.1),
    fun h => ?_⟩
  have hq := h1.2.2.2 h
  exact (h2.2.2.2 (by rw [hq]; exact h)).trans hq

theorem ReportStep.toEngine {p q : Part} (h : ReportStep p q) : EngineStep p q := by
  unfold ReportStep at h; rw [h]; exact ⟨rfl, rfl, rfl, fun _ => rfl⟩

theorem EngineStep.foldl {α : Type} {f : Part → α → Part} (h : ∀ q a, EngineStep q (f q a)) (l : List α)
    (p : Part) : EngineStep p (l.foldl f p) := foldl_step EngineStep.refl EngineStep.trans h l p

/-! ### RackStep -/

theorem RackStep.refl (p : Part) : RackStep p p := ⟨rfl, rfl, rfl⟩

theorem RackStep.trans {p q r : Part} (h1 : RackStep p q) (h2 : RackStep q r) : RackStep p r :=
  ⟨Eq.trans h2.1 (congrArg (fun x : Part =>
    { x with
      tours := r.tours, units := r.units, zones := r.zones, frames := r.frames, racks := r.racks
      bus := r.bus, queue := r.queue, lastJobNumber := r.lastJobNumber, peakQueue := r.peakQueue
      retireList := r.retireList, channels := r.channels, issues := r.issues, store := r.store
      reports := r.reports }) h1.1),
   h2.2.1.trans h1.2.1,
   Eq.trans h2.2.2 (congrArg (fun x : Engine =>
      { x with op := r.store.op, retireDirty := r.store.retireDirty, corrected := r.store.corrected }) h1.2.2)⟩

theorem AirStep.toRack {p q : Part} (h : AirStep p q) : RackStep p q := by
  unfold AirStep at h; rw [h]; exact ⟨rfl, rfl, rfl⟩

theorem ReportStep.toRack {p q : Part} (h : ReportStep p q) : RackStep p q := h.toAir.toRack

theorem Rack.shell_still (k : Rack) : k.still.shell = k.shell := rfl

theorem EngineStep.toRack {p q : Part} (h : EngineStep p q) : RackStep p q := by
  refine ⟨?_, ?_, h.2.2.1⟩
  · have := h.1
    rw [this]
  · have hs : ∀ x : Part, x.racks.map Rack.shell = (x.racks.map Rack.still).map Rack.shell := fun x => by
      rw [Vector.map_map]
      exact (Vector.map_congr_left fun k _ => (Rack.shell_still k).symm)
    rw [hs q, hs p, h.2.1]

theorem RackStep.foldl {α : Type} {f : Part → α → Part} (h : ∀ q a, RackStep q (f q a)) (l : List α)
    (p : Part) : RackStep p (l.foldl f p) := foldl_step RackStep.refl RackStep.trans h l p

/-! ### What the frames leave, read off -/

theorem EngineStep.bay_still {p q : Part} (h : EngineStep p q) (b : BayRef) :
    (q.bay b).still = (p.bay b).still := by
  have hr : (q.racks.map Rack.still)[b.rack] = (p.racks.map Rack.still)[b.rack] := by rw [h.2.1]
  simp only [Fin.getElem_fin, Vector.getElem_map] at hr
  have hb := congrArg Rack.bays hr
  simp only [Rack.still] at hb
  have hb' := congrArg (fun v : Vector Bay 24 => v[b.no]) hb
  simpa [Part.bay, Part.rack, Rack.bay] using hb'

theorem EngineStep.rack_still {p q : Part} (h : EngineStep p q) (r : RackNo) :
    (q.rack r).still = (p.rack r).still := by
  have hr : (q.racks.map Rack.still)[r] = (p.racks.map Rack.still)[r] := by rw [h.2.1]
  simpa [Part.rack] using hr

theorem RackStep.rack_shell {p q : Part} (h : RackStep p q) (r : RackNo) :
    (q.rack r).shell = (p.rack r).shell := by
  have hr : (q.racks.map Rack.shell)[r] = (p.racks.map Rack.shell)[r] := by rw [h.2.1]
  simpa [Part.rack] using hr

end Sys2Proof.Machine
end

