-- ==== Sys2Proof/Laws/Air.lean ====
section
/-! SUPPORT. What the shared operations of the air side may change: the zone scheduler's (spec 03), the
tour table's (spec 01), the notice mechanism's (spec 04) and the unit table's (spec 02). -/

namespace Sys2Proof.Machine

/-! ### The zone scheduler -/

theorem ZoneStep.modZone (p : Part) (z : ZoneNo) (f : Zone → Zone) : ZoneStep p (p.modZone z f) := rfl

theorem ZoneStep.setZone (p : Part) (z : ZoneNo) (x : Zone) : ZoneStep p (p.setZone z x) := rfl

theorem ReportStep.noteCrowded (before : Part) (z : ZoneNo) (after : Part) :
    ReportStep after (before.noteCrowded z after) := by
  unfold Part.noteCrowded
  split
  · exact ReportStep.raise _ _ _
  · rfl

theorem ZoneStep.createCarriage (p : Part) (z : ZoneNo) (st : CarrStream) (n : Nat) :
    ZoneStep p (p.createCarriage z st n) := by
  simp only [Part.createCarriage]
  split
  · exact ZoneStep.setZone _ _ _
  · exact ZoneStep.trans (ZoneStep.setZone _ _ _) (ReportStep.noteCrowded _ _ _).toZone

theorem ZoneStep.addListener (p : Part) (z : ZoneNo) (t : Tune) : ZoneStep p (p.addListener z t) := by
  unfold Part.addListener
  split
  · rfl
  · split
    · rfl
    · exact ZoneStep.createCarriage _ _ _ _

theorem ZoneStep.removeListener (p : Part) (z : ZoneNo) (t : Tune) : ZoneStep p (p.removeListener z t) := by
  unfold Part.removeListener
  split
  · rfl
  · split
    · rfl
    · split
      · rfl
      · split
        · rfl
        · split <;> rfl

theorem ZoneStep.moveListener (p : Part) (z : ZoneNo) (old new : Option Tune) :
    ZoneStep p (p.moveListener z old new) := by
  unfold Part.moveListener
  split
  · rfl
  · cases old with
    | none =>
      cases new with
      | none => rfl
      | some t => exact ZoneStep.addListener _ _ _
    | some o =>
      cases new with
      | none => exact ZoneStep.removeListener _ _ _
      | some t => exact ZoneStep.trans (ZoneStep.removeListener _ _ _) (ZoneStep.addListener _ _ _)

theorem ZoneStep.claimTracks (p : Part) (z : ZoneNo) (ks : List TrackNo) : ZoneStep p (p.claimTracks z ks) := by
  simp only [Part.claimTracks]
  split
  · rfl
  · exact ZoneStep.trans (ZoneStep.setZone _ _ _) (ReportStep.noteCrowded _ _ _).toZone

theorem ZoneStep.releaseTracks (p : Part) (z : ZoneNo) : ZoneStep p (p.releaseTracks z) := by
  unfold Part.releaseTracks
  split <;> rfl

theorem ZoneStep.claimUplink (p : Part) (z : ZoneNo) (u : UnitId) (f : Bool) :
    ZoneStep p (p.claimUplink z u f) := by
  unfold Part.claimUplink
  split <;> rfl

theorem ZoneStep.releaseUplink (p : Part) (z : ZoneNo) (u : UnitId) : ZoneStep p (p.releaseUplink z u) := by
  unfold Part.releaseUplink
  split <;> rfl

theorem ZoneStep.handSets (p : Part) : ZoneStep p p.handSets := rfl

/-! ### The tour table -/

theorem ZoneStep.restream (before after : Part) : ZoneStep after (before.restream after) := by
  unfold Part.restream
  refine ZoneStep.trans (ZoneStep.foldl (fun q x => ?_) _ _) (ZoneStep.handSets _)
  split
  · exact ZoneStep.moveListener _ _ _ _
  · rfl

theorem AirStep.setTour (p : Part) (t : TourNo) (x : Tour) : AirStep p (p.setTour t x) := rfl

theorem AirStep.modTour (p : Part) (t : TourNo) (f : Tour → Tour) : AirStep p (p.modTour t f) := rfl

theorem AirStep.takeClaim (p : Part) (t : TourNo) : AirStep p (p.takeClaim t) := rfl

theorem AirStep.releaseClaim (p : Part) (t : TourNo) : AirStep p (p.releaseClaim t) := by
  simp only [Part.releaseClaim]
  split
  · exact AirStep.trans (AirStep.trans (AirStep.setTour _ _ _) (ReportStep.raise _ _ _).toAir)
      (ZoneStep.handSets _).toAir
  · rfl

theorem AirStep.dropSource (p : Part) (t : TourNo) (x : LangNo × UnitId) : AirStep p (p.dropSource t x) := by
  have h (q : Part) : AirStep q { q with frames := q.frames.discard ⟨t, x.1⟩ } := rfl
  simp only [Part.dropSource]
  split
  · exact AirStep.trans (AirStep.modTour p t _) (AirStep.trans (ZoneStep.releaseUplink _ _ _).toAir (h _))
  · exact AirStep.trans (AirStep.modTour p t _) (h _)

theorem AirStep.withdrawSource (p : Part) (u : UnitId) : AirStep p (p.withdrawSource u) := by
  simp only [Part.withdrawSource]
  split
  · rfl
  · refine AirStep.trans (q := Part.restream p _) ?_ (ReportStep.raise _ _ _).toAir
    refine AirStep.trans ?_ (ZoneStep.restream _ _).toAir
    split
    · exact AirStep.trans (AirStep.dropSource _ _ _)
        (AirStep.trans (AirStep.setTour _ _ _) (ReportStep.raise _ _ _).toAir)
    · exact AirStep.dropSource _ _ _

/-! ### The notice mechanism -/

theorem ZoneStep.placeNoticeIn (p : Part) (u : UnitId) (zs : List ZoneNo) :
    ZoneStep p (p.placeNoticeIn u zs) :=
  ZoneStep.foldl (fun _ _ => ZoneStep.modZone _ _ _) _ _

theorem ZoneStep.unplaceNoticesIn (p : Part) (us : List UnitId) (zs : List ZoneNo) :
    ZoneStep p (p.unplaceNoticesIn us zs) :=
  ZoneStep.foldl (fun _ _ => ZoneStep.modZone _ _ _) _ _

theorem ZoneStep.rehomeNotice (p : Part) (u : UnitId) (a b : List ZoneNo) :
    ZoneStep p (p.rehomeNotice u a b) := by
  unfold Part.rehomeNotice
  split
  · rfl
  · exact ZoneStep.trans (ZoneStep.unplaceNoticesIn _ _ _) (ZoneStep.placeNoticeIn _ _ _)

theorem AirStep.modEntry (p : Part) (u : UnitId) (f : Entry → Entry) : AirStep p (p.modEntry u f) := rfl

theorem AirStep.clearNotice (p : Part) (b : Bool) (u : UnitId) : AirStep p (p.clearNotice b u) := by
  simp only [Part.clearNotice]
  split
  · rfl
  · split
    · split
      · exact AirStep.trans (AirStep.modEntry _ _ _) (AirStep.releaseClaim _ _)
      · rfl
    · rfl

theorem AirStep.endNotices (p : Part) (us : List UnitId) : AirStep p (p.endNotices us) := by
  simp only [Part.endNotices]
  split
  · rfl
  · exact AirStep.trans (AirStep.foldl (fun _ _ => AirStep.clearNotice _ _ _) _ _)
      (ZoneStep.unplaceNoticesIn _ _ _).toAir

theorem AirStep.endNotice (p : Part) (u : UnitId) : AirStep p (p.endNotice u) := AirStep.endNotices _ _

theorem AirStep.raiseNotice (p : Part) (u : UnitId) (k : NoticeKind) (t : Option Tune) (r : Bool) :
    AirStep p (p.raiseNotice u k t r) := by
  simp only [Part.raiseNotice]
  have h : AirStep p (if r = true then (match t with | some t => (p.endNotice u).takeClaim t.tour | none => p.endNotice u)
      else p.endNotice u) := by
    split
    · split
      · exact AirStep.trans (AirStep.endNotice _ _) (AirStep.takeClaim _ _)
      · exact AirStep.endNotice _ _
    · exact AirStep.endNotice _ _
  split
  · exact h
  · exact AirStep.trans h (AirStep.trans (AirStep.modEntry _ _ _) (ZoneStep.placeNoticeIn _ _ _).toAir)

/-! ### The unit table -/

theorem AirStep.reassign (p : Part) (u : UnitId) (a : Option Tune) : AirStep p (p.reassign u a) := by
  simp only [Part.reassign]
  split
  · rfl
  · split
    · exact AirStep.trans (AirStep.modEntry _ _ _) (ZoneStep.moveListener _ _ _ _).toAir
    · rfl

theorem AirStep.unassign (p : Part) (u : UnitId) : AirStep p (p.unassign u) := by
  unfold Part.unassign
  split
  · exact AirStep.trans (AirStep.reassign _ _ _) (AirStep.releaseClaim _ _)
  · rfl

theorem ZoneStep.leaveZone (p : Part) (e : Entry) (z : ZoneNo) : ZoneStep p (p.leaveZone e z) := by
  unfold Part.leaveZone
  split
  · exact ZoneStep.moveListener _ _ _ _
  · exact ZoneStep.releaseUplink _ _ _

theorem ZoneStep.enterZone (p : Part) (e : Entry) (z : ZoneNo) : ZoneStep p (p.enterZone e z) := by
  unfold Part.enterZone
  split
  · exact ZoneStep.moveListener _ _ _ _
  · split
    · exact ZoneStep.claimUplink _ _ _ _
    · rfl

theorem AirStep.strip (p : Part) (u : UnitId) : AirStep p (p.strip u) :=
  AirStep.trans (AirStep.trans (AirStep.unassign _ _) (AirStep.endNotice _ _)) (AirStep.withdrawSource _ _)

theorem AirStep.removeEntry (p : Part) (u : UnitId) : AirStep p (p.removeEntry u) := rfl

theorem AirStep.addEntry (p : Part) (i : Nat) (e : Entry) : AirStep p (p.addEntry i e) := rfl

theorem AirStep.evict (p : Part) (i : Nat) (u : UnitId) : AirStep p (p.evict i u) :=
  AirStep.trans (AirStep.trans (AirStep.strip _ _) (AirStep.removeEntry _ _)) (ReportStep.raiseWith _ _ _ _).toAir

theorem AirStep.makePlace (p : Part) : AirStep p p.makePlace.1 := by
  unfold Part.makePlace
  split
  · rfl
  · split
    · exact AirStep.evict _ _ _
    · rfl

theorem AirStep.seatUnit (p : Part) (u : UnitId) (c : UnitClass) (b : BayRef) :
    AirStep p (p.seatUnit u c b).1 := by
  simp only [Part.seatUnit]
  split
  · dsimp only
    exact AirStep.trans (AirStep.strip _ _) (AirStep.modEntry _ _ _)
  · have h := AirStep.makePlace p
    split <;> rename_i heq <;> rw [heq] at h
    · exact AirStep.trans h (AirStep.addEntry _ _ _)
    · exact h

theorem AirStep.unseatUnit (p : Part) (u : UnitId) (b : BayRef) (d : Disposition) :
    AirStep p (p.unseatUnit u b d) := by
  simp only [Part.unseatUnit]
  split
  · rfl
  · split
    · rfl
    · split
      · exact AirStep.trans (AirStep.modEntry _ _ _) (ReportStep.raiseUnit _ _ _ _).toAir
      · exact AirStep.modEntry _ _ _

theorem AirStep.ackEffect (p : Part) (u : UnitId) (old : Option Tune) (n : Notice) :
    AirStep p (p.ackEffect u old n) := by
  simp only [Part.ackEffect]
  split
  · split
    · split
      · exact AirStep.trans (AirStep.reassign _ _ _) (AirStep.releaseClaim _ _)
      · exact AirStep.reassign _ _ _
    · split
      · split
        · exact AirStep.reassign _ _ _
        · split
          · exact AirStep.trans (AirStep.trans (AirStep.takeClaim _ _) (AirStep.reassign _ _ _))
              (AirStep.releaseClaim _ _)
          · exact AirStep.unassign _ _
      · split
        · exact AirStep.trans (AirStep.takeClaim _ _) (AirStep.reassign _ _ _)
        · rfl
  · exact AirStep.unassign _ _
  · rfl

theorem AirStep.acknowledge (p : Part) (u : UnitId) (n : Notice) : AirStep p (p.acknowledge u n) := by
  simp only [Part.acknowledge]
  exact AirStep.trans (AirStep.trans (AirStep.trans (AirStep.clearNotice _ _ _) (AirStep.ackEffect _ _ _ _))
    (ZoneStep.unplaceNoticesIn _ _ _).toAir) (ReportStep.raiseUnit _ _ _ _).toAir

theorem AirStep.takeTune (p : Part) (u : UnitId) (t : Option Tune) : AirStep p (p.takeTune u t) := by
  simp only [Part.takeTune]
  split
  · rfl
  · split
    · rfl
    · split
      · split
        · rfl
        · split
          · exact AirStep.trans (AirStep.trans (AirStep.takeClaim _ _) (AirStep.reassign _ _ _))
              (ReportStep.raiseUnit _ _ _ _).toAir
          · rfl
      · split
        · rfl
        · split
          · exact AirStep.raiseNotice _ _ _ _ _
          · rfl
      · rfl

theorem AirStep.takeContents (p : Part) (u : UnitId) (st : StatusRecord) : AirStep p (p.takeContents u st) := by
  unfold Part.takeContents
  split
  · split
    · exact AirStep.acknowledge _ _ _
    · exact AirStep.takeTune _ _ _
  · exact AirStep.takeTune _ _ _

theorem AirStep.foundStatus (p : Part) (z : ZoneNo) (st : StatusRecord) : AirStep p (p.foundStatus z st) := by
  simp only [Part.foundStatus]
  have h := AirStep.makePlace p
  split <;> rename_i heq <;> rw [heq] at h
  · exact h
  · exact AirStep.trans h (AirStep.trans (AirStep.addEntry _ _ _) (AirStep.trans
      (ReportStep.raise _ _ _).toAir (AirStep.trans (ZoneStep.enterZone _ _ _).toAir (AirStep.takeContents _ _ _))))

theorem AirStep.takeStatus (p : Part) (e : Entry) (z : ZoneNo) (st : StatusRecord) :
    AirStep p (p.takeStatus e z st) := by
  simp only [Part.takeStatus]
  split
  · exact AirStep.trans (AirStep.modEntry _ _ _) (AirStep.takeContents _ _ _)
  · refine AirStep.trans ?_ (AirStep.takeContents _ _ _)
    split
    · exact AirStep.trans (AirStep.modEntry _ _ _) (ZoneStep.toAir (ZoneStep.trans (ZoneStep.leaveZone _ _ _)
        (ZoneStep.trans (ZoneStep.enterZone _ _ _) (ZoneStep.rehomeNotice _ _ _ _))))
    · exact AirStep.trans (AirStep.modEntry _ _ _) (ZoneStep.toAir
        (ZoneStep.trans (ZoneStep.enterZone _ _ _) (ZoneStep.rehomeNotice _ _ _ _)))

theorem AirStep.statusRecord (p : Part) (z : ZoneNo) (st : StatusRecord) : AirStep p (p.statusRecord z st) := by
  unfold Part.statusRecord
  split
  · rfl
  · split
    · rfl
    · split
      · exact AirStep.foundStatus _ _ _
      · split
        · rfl
        · split
          · rfl
          · split
            · exact AirStep.takeStatus _ _ _ _
            · rfl

theorem AirStep.clearZone (p : Part) (z : ZoneNo) : AirStep p (p.clearZone z) := by
  simp only [Part.clearZone]
  exact AirStep.foldl (fun q u => AirStep.trans (AirStep.modEntry _ _ _) (ZoneStep.rehomeNotice _ _ _ _).toAir) _ _

theorem AirStep.teardownZone (p : Part) (z : ZoneNo) (st : ZoneState) : AirStep p (p.teardownZone z st) := by
  simp only [Part.teardownZone]
  exact AirStep.trans (AirStep.trans (ZoneStep.setZone _ _ _).toAir (AirStep.clearZone _ _))
    (ReportStep.raise _ _ _).toAir

theorem ZoneStep.zoneUp (p : Part) (z : ZoneNo) : ZoneStep p (p.zoneUp z) := by
  simp only [Part.zoneUp]
  refine ZoneStep.trans ?_ (ReportStep.raise _ _ _).toZone
  split
  · exact ZoneStep.trans (ZoneStep.modZone _ _ _) (ZoneStep.trans (ZoneStep.claimTracks _ _ _)
      (ZoneStep.foldl (fun _ _ => ZoneStep.modZone _ _ _) _ _))
  · exact ZoneStep.trans (ZoneStep.modZone _ _ _) (ZoneStep.foldl (fun _ _ => ZoneStep.modZone _ _ _) _ _)

theorem AirStep.zoneHello (p : Part) (z : ZoneNo) : AirStep p (p.zoneHello z) := by
  unfold Part.zoneHello
  split
  · rfl
  · exact (ZoneStep.zoneUp _ _).toAir
  · exact AirStep.trans (AirStep.teardownZone _ _ _) (ZoneStep.zoneUp _ _).toAir

theorem AirStep.enableZone (p : Part) (z : ZoneNo) (on : Bool) : AirStep p (p.enableZone z on) := by
  unfold Part.enableZone
  split
  · exact AirStep.teardownZone _ _ _
  · rfl
  · rfl
  · rfl

end Sys2Proof.Machine
end

