-- ==== Sys2Proof/Laws/Engine.lean ====
section
/-! SUPPORT. What the provisioning engine, the displays, the bus and the end of an event may change
(spec 06, 08, 09): `finish` and everything it is made of is an engine step. -/

namespace Sys2Proof.Machine

/-! ### Updates that are engine steps -/

theorem map_set_self {α β : Type} {n : Nat} (v : Vector α n) (i : Nat) (hi : i < n) (x : α) (f : α → β)
    (h : f x = f v[i]) : (v.set i x).map f = v.map f := by
  ext k hk
  by_cases e : i = k
  · subst e; simp [h]
  · simp [e]

theorem EngineStep.setRack (p : Part) (r : RackNo) (x : Rack) (h : x.still = (p.rack r).still) :
    EngineStep p (p.setRack r x) :=
  ⟨rfl, map_set_self p.racks r.val r.isLt x Rack.still h, rfl, fun _ => rfl⟩

theorem EngineStep.modRack (p : Part) (r : RackNo) (f : Rack → Rack) (h : (f (p.rack r)).still = (p.rack r).still) :
    EngineStep p (p.modRack r f) := EngineStep.setRack p r _ h

theorem EngineStep.setBay (p : Part) (b : BayRef) (y : Bay) (h : y.still = (p.bay b).still) :
    EngineStep p (p.setBay b y) := by
  refine EngineStep.modRack p b.rack _ ?_
  have e : ((p.rack b.rack).bays.set b.no y).map Bay.still = (p.rack b.rack).bays.map Bay.still :=
    map_set_self _ b.no.val b.no.isLt y Bay.still h
  simp only [Rack.still, Rack.setBay, e]

theorem EngineStep.modBay (p : Part) (b : BayRef) (f : Bay → Bay) (h : (f (p.bay b)).still = (p.bay b).still) :
    EngineStep p (p.modBay b f) := EngineStep.setBay p b _ h

theorem EngineStep.setChannel (p : Part) (c : ChannelNo) (x : Channel) : EngineStep p (p.setChannel c x) :=
  ⟨rfl, rfl, rfl, fun _ => rfl⟩

theorem EngineStep.modChannel (p : Part) (c : ChannelNo) (f : Channel → Channel) :
    EngineStep p (p.modChannel c f) := EngineStep.setChannel p c _

theorem EngineStep.noteCorrection (p : Part) (c : Bool) : EngineStep p (p.noteCorrection c) := by
  unfold Part.noteCorrection
  split
  · exact ⟨rfl, rfl, rfl, fun _ => rfl⟩
  · exact EngineStep.refl _

theorem EngineStep.raise (p : Part) (s : Source) (k : EventKind) : EngineStep p (p.raise s k) :=
  (ReportStep.raise p s k).toEngine

/-! ### Ready standing, orders, displays -/

theorem EngineStep.readyEval (p : Part) (b : BayRef) : EngineStep p (p.readyEval b) := by
  simp only [Part.readyEval]
  split
  · split
    · exact EngineStep.refl _
    · exact EngineStep.setRack _ _ _ rfl
  · exact EngineStep.setRack _ _ _ rfl

theorem EngineStep.readyEvalAll (p : Part) : EngineStep p p.readyEvalAll :=
  EngineStep.trans (EngineStep.foldl EngineStep.readyEval _ _) (EngineStep.foldl EngineStep.readyEval _ _)

theorem EngineStep.orderCharge (p : Part) (b : BayRef) (on : Bool) : EngineStep p (p.orderCharge b on) := by
  unfold Part.orderCharge
  split
  · exact EngineStep.modBay _ _ _ rfl
  · exact EngineStep.refl _

theorem EngineStep.refreshDisplay (p : Part) (b : BayRef) : EngineStep p (p.refreshDisplay b) := by
  simp only [Part.refreshDisplay]
  split
  · split
    · exact EngineStep.refl _
    · exact EngineStep.setBay _ _ _ rfl
  · split <;> exact EngineStep.setBay _ _ _ rfl

theorem EngineStep.refreshDisplays (p : Part) : EngineStep p p.refreshDisplays :=
  EngineStep.foldl EngineStep.refreshDisplay _ _

theorem EngineStep.orderDisplay (p : Part) (b : BayRef) : EngineStep p (p.orderDisplay b) := by
  simp only [Part.orderDisplay]
  exact EngineStep.modBay _ _ _ rfl

/-! ### The queue and the channels -/

theorem EngineStep.prepareTx (p : Part) (c : ChannelNo) (d : Dock) (a : Option Nat) :
    EngineStep p (p.prepareTx c d a) := EngineStep.modChannel _ _ _

theorem EngineStep.dispatchTo (p : Part) (c : ChannelNo) (j : Job) : EngineStep p (p.dispatchTo c j) := by
  simp only [Part.dispatchTo]
  refine EngineStep.trans (q := { p with queue := p.queue.filter (·.number != j.number) }) ⟨rfl, rfl, rfl, fun _ => rfl⟩ ?_
  exact EngineStep.trans (EngineStep.modChannel _ _ _) (EngineStep.prepareTx _ _ _ _)

theorem EngineStep.dispatchChannel (p : Part) (c : ChannelNo) : EngineStep p (p.dispatchChannel c) := by
  unfold Part.dispatchChannel
  split
  · split
    · exact EngineStep.dispatchTo _ _ _
    · exact EngineStep.refl _
  · exact EngineStep.refl _

theorem EngineStep.dispatch (p : Part) : EngineStep p p.dispatch :=
  EngineStep.foldl EngineStep.dispatchChannel _ _

theorem EngineStep.joinQueue (p : Part) (b : BayRef) (u : UnitId) (w : JobWork) :
    EngineStep p (p.joinQueue b u w) := by
  simp only [Part.joinQueue]
  refine EngineStep.trans ?_ (EngineStep.dispatch _)
  refine EngineStep.trans ?_ (EngineStep.readyEval _ _)
  exact EngineStep.trans ⟨rfl, rfl, rfl, fun _ => rfl⟩ (EngineStep.modBay _ _ _ rfl)

theorem Part.nextWork_still {p : Part} {b : BayRef} {w : JobWork × (Bay → Bay)} (h : p.nextWork b = some w)
    (y : Bay) : (w.2 y).still = y.still := by
  simp only [Part.nextWork] at h
  split at h
  · cases h; rfl
  · split at h
    · cases h; rfl
    · split at h
      · split at h
        · split at h
          · cases h; rfl
          · cases h
        · cases h
      · cases h

theorem EngineStep.tryWork (p : Part) (b : BayRef) : EngineStep p (p.tryWork b) := by
  simp only [Part.tryWork]
  split
  · split
    · split
      · next h => exact EngineStep.trans (EngineStep.modBay _ _ _ (Part.nextWork_still h _)) (EngineStep.joinQueue _ _ _ _)
      · exact EngineStep.refl _
    · exact EngineStep.refl _
  · exact EngineStep.refl _

theorem EngineStep.serveBays (p : Part) : EngineStep p p.serveBays := EngineStep.foldl EngineStep.tryWork _ _

theorem EngineStep.requestIdentify (p : Part) (b : BayRef) : EngineStep p (p.requestIdentify b) := by
  unfold Part.requestIdentify
  split
  · exact EngineStep.trans (EngineStep.modBay _ _ _ rfl) (EngineStep.tryWork _ _)
  · exact EngineStep.refl _

theorem EngineStep.addUntune (p : Part) (b : BayRef) : EngineStep p (p.addUntune b) := by
  unfold Part.addUntune
  split
  · exact EngineStep.trans (EngineStep.modBay _ _ _ rfl) (EngineStep.readyEval _ _)
  · exact EngineStep.refl _

theorem EngineStep.addRefresh (p : Part) (b : BayRef) : EngineStep p (p.addRefresh b) := by
  unfold Part.addRefresh
  split
  · exact EngineStep.trans (EngineStep.modBay _ _ _ rfl) (EngineStep.readyEval _ _)
  · exact EngineStep.refl _

theorem EngineStep.emptyNeeds (p : Part) (b : BayRef) : EngineStep p (p.emptyNeeds b) :=
  EngineStep.modBay _ _ _ rfl

theorem EngineStep.setPickMark (p : Part) (b : BayRef) (on : Bool) : EngineStep p (p.setPickMark b on) :=
  EngineStep.modBay _ _ _ rfl

/-! ### The end of a job that is not an issue's TUNE and not DONE -/

theorem EngineStep.dropJob (p : Part) (j : Job) : EngineStep p (p.dropJob j) := ⟨rfl, rfl, rfl, fun _ => rfl⟩

/-- A job other than an issue's TUNE that ends FAILED or ABORTED, raising no fault (R167). -/
theorem EngineStep.endJob (p : Part) (j : Job) (r : JobResult) (hu : j.work.urgent = false) (hr : r ≠ .done) :
    EngineStep p (p.endJob j r) := by
  unfold Part.endJob Part.endJobWith
  simp only [hu]
  refine EngineStep.trans ?_ (EngineStep.raise _ _ _)
  refine EngineStep.trans ?_ (EngineStep.readyEval _ _)
  refine EngineStep.trans ?_ (EngineStep.tryWork _ _)
  refine EngineStep.trans (q := (p.dropJob j).modBay j.bay fun y =>
    { y with job := none, lastJob := some ⟨j.number, j.work.kind, r⟩ }) ?_ ?_
  · exact EngineStep.trans (EngineStep.dropJob _ _) (EngineStep.modBay _ _ _ rfl)
  · simp only [Bool.false_eq_true, if_false, ite_self]
    unfold Part.kindEffects
    split
    · exact absurd rfl hr
    · exact EngineStep.modBay _ _ _ rfl
    · exact EngineStep.refl _

/-! ### Serving the engine -/

theorem EngineStep.prepareChecked (p : Part) (c : ChannelNo) (j : Job) (i : Ident) (d : Dock) (a : Nat)
    (hu : j.work.urgent = false) : EngineStep p (p.prepareChecked c j i d a) := by
  unfold Part.prepareChecked
  split
  · exact EngineStep.prepareTx _ _ _ _
  · exact EngineStep.trans (EngineStep.trans (EngineStep.modChannel _ _ _)
      (EngineStep.endJob _ _ _ hu (by intro h; cases h))) (EngineStep.raise _ _ _)

theorem EngineStep.fillStaging (p : Part) (c : ChannelNo) (s : Staging) : EngineStep p (p.fillStaging c s) :=
  EngineStep.modChannel _ _ _

theorem EngineStep.modActive (p : Part) (c : ChannelNo) (f : Job → Job) : EngineStep p (p.modActive c f) :=
  EngineStep.modChannel _ _ _

theorem EngineStep.refreshPage (nv : Nv) (p : Part) (c : ChannelNo) (j : Job) (i : Ident) (s : UnitClass)
    (hu : j.work.urgent = false) : EngineStep p (p.refreshPage nv c j i s) := by
  simp only [Part.refreshPage]
  split
  · exact EngineStep.trans (EngineStep.trans (EngineStep.trans (EngineStep.noteCorrection _ _)
      (EngineStep.modActive _ _ _)) (EngineStep.fillStaging _ _ _)) (EngineStep.prepareChecked _ _ _ _ _ _ hu)
  · exact EngineStep.trans (EngineStep.modActive _ _ _) (EngineStep.prepareTx _ _ _ _)

theorem EngineStep.resume (nv : Nv) (p : Part) (c : ChannelNo) (j : Job) : EngineStep p (p.resume nv c j) := by
  simp only [Part.resume]
  split
  · next hw _ =>
    refine EngineStep.trans (EngineStep.modChannel _ _ _) (EngineStep.refreshPage _ _ _ _ _ _ ?_)
    rw [hw]; rfl
  · exact EngineStep.modChannel _ _ _

theorem EngineStep.freeChannel (p : Part) (c : ChannelNo) : EngineStep p (p.freeChannel c) := by
  have h := EngineStep.trans (EngineStep.modChannel p c fun h => { h with state := .idle })
    (EngineStep.dispatchChannel _ c)
  simp only [Part.freeChannel]
  split
  · exact h
  · exact h
  · exact EngineStep.refl _

theorem EngineStep.serveLeft (p : Part) : EngineStep p p.serveLeft :=
  EngineStep.trans (EngineStep.foldl EngineStep.freeChannel _ _) (EngineStep.serveBays _)

theorem EngineStep.serveChannel (nv : Nv) (p : Part) (c : ChannelNo) : EngineStep p (p.serveChannel nv c) := by
  simp only [Part.serveChannel]
  split
  · exact EngineStep.resume _ _ _ _
  · exact EngineStep.resume _ _ _ _
  · exact EngineStep.freeChannel _ _

theorem EngineStep.park (p : Part) (c : ChannelNo) : EngineStep p (p.park c) := by
  simp only [Part.park]
  refine EngineStep.trans ?_ (EngineStep.raise _ _ _)
  split
  · exact EngineStep.trans (EngineStep.modChannel _ _ _) (EngineStep.dispatchTo _ _ _)
  · exact EngineStep.modChannel _ _ _

theorem EngineStep.judgeYield (p : Part) : EngineStep p p.judgeYield := by
  simp only [Part.judgeYield]
  split
  · split
    · exact EngineStep.refl _
    · refine iteInduction (motive := EngineStep p) (fun _ => ?_) (fun _ => ?_)
      · exact EngineStep.modChannel _ _ _
      · exact EngineStep.trans (EngineStep.modChannel _ _ _) (EngineStep.park _ _)
  · exact EngineStep.refl _

theorem EngineStep.serveEngine (nv : Nv) (p : Part) : EngineStep p (p.serveEngine nv) := by
  have h : EngineStep p (allChannels.foldl (fun q c => q.serveChannel nv c) p) :=
    EngineStep.foldl (fun q c => EngineStep.serveChannel nv q c) _ _
  simp only [Part.serveEngine]
  refine EngineStep.trans h ?_
  refine EngineStep.trans (EngineStep.trans (EngineStep.dispatch _) (EngineStep.serveBays _)) ?_
  refine EngineStep.trans ?_ (EngineStep.serveBays _)
  exact EngineStep.trans (EngineStep.trans (EngineStep.trans (EngineStep.judgeYield _) (EngineStep.judgeYield _))
    (EngineStep.judgeYield _)) (EngineStep.judgeYield _)

/-! ### The end of an event -/

theorem EngineStep.startRetireSave (p : Part) : EngineStep p p.startRetireSave := by
  unfold Part.startRetireSave
  split
  · next h =>
    refine ⟨rfl, rfl, rfl, fun h' => ?_⟩
    simp only [Bool.and_eq_true, Option.isNone_iff_eq_none] at h
    rw [h.2] at h'
    cases h'
  · exact EngineStep.refl _

theorem EngineStep.settleEvent (nv : Nv) (p : Part) : EngineStep p (p.settleEvent nv) :=
  EngineStep.trans (EngineStep.trans (EngineStep.serveEngine nv p) (EngineStep.refreshDisplays _))
    (EngineStep.startRetireSave _)

theorem Rack.still_carryOrders (k : Rack) : k.carryOrders.still = k.still := by
  have h : (k.bays.map fun y : Bay =>
      { y with chargeOrder := y.chargeOrder.map fun o => { o with carried := true }
               displayOrder := y.displayOrder.map fun o => { o with carried := true } }).map Bay.still =
      k.bays.map Bay.still := by
    rw [Vector.map_map]; rfl
  simp only [Rack.carryOrders, Rack.still, h]

theorem EngineStep.busServe (p : Part) : EngineStep p p.busServe := by
  have hb (q : Part) (x : Bus) : EngineStep q { q with bus := x } := ⟨rfl, rfl, rfl, fun _ => rfl⟩
  simp only [Part.busServe]
  split
  · exact EngineStep.refl _
  · split
    · refine EngineStep.trans (EngineStep.modRack _ _ _ ?_) (hb _ _)
      split
      · rw [Rack.still_carryOrders]; rfl
      · rfl
    · split
      · exact EngineStep.refl _
      · split
        · exact EngineStep.refl _
        · exact EngineStep.trans (EngineStep.modChannel _ _ _) (hb _ _)

/-- The end of a step's last event changes what the engine, the displays, the bus and the retire list
save change, and nothing else (log 10). -/
theorem EngineStep.finish (nv : Nv) (p : Part) : EngineStep p (p.finish nv) :=
  EngineStep.trans (EngineStep.settleEvent nv p) (EngineStep.busServe _)

end Sys2Proof.Machine
end

