-- ==== Sys2Proof/Laws/Memory.lean ====
section
/-! SUPPORT. The byte memory of an image region: every write keeps its canonical form, a byte written is
the byte read, and the operations of the store keep both regions canonical. -/

namespace Sys2Proof.Machine

theorem Memory.wfFrom_mono {lo lo' : Nat} (h : lo' ≤ lo) : ∀ {m : Memory},
    Memory.wfFrom lo m = true → Memory.wfFrom lo' m = true
  | [], _ => rfl
  | (a, v) :: m, w => by
    simp only [Memory.wfFrom, Bool.and_eq_true, decide_eq_true_eq] at w ⊢
    exact ⟨⟨⟨Nat.le_trans h w.1.1.1, w.1.1.2⟩, w.1.2⟩, w.2⟩

/-- Writing one byte inside the region keeps the canonical form. -/
theorem Memory.wfFrom_write {a : Nat} (v : Byte) (hs : a < Memory.size) : ∀ {m : Memory} {lo : Nat},
    lo ≤ a → Memory.wfFrom lo m = true → Memory.wfFrom lo (Memory.write m a v) = true
  | [], lo, hl, _ => by
    by_cases hv : v = Memory.erasedByte
    · simp [Memory.write, hv, Memory.wfFrom]
    · simp [Memory.write, hv, Memory.wfFrom, hl, hs]
  | (b, w) :: m, lo, hl, h => by
    simp only [Memory.wfFrom, Bool.and_eq_true, decide_eq_true_eq] at h
    obtain ⟨⟨⟨hlb, hbs⟩, hw⟩, hm⟩ := h
    unfold Memory.write
    split
    · next hab =>
      split
      · simp [Memory.wfFrom, hlb, hbs, hw, hm]
      · next hv =>
        simp only [Memory.wfFrom, Bool.and_eq_true, decide_eq_true_eq]
        exact ⟨⟨⟨hl, hs⟩, hv⟩, ⟨⟨hab, hbs⟩, hw⟩, hm⟩
    · split
      · next hab =>
        subst hab
        split
        · exact Memory.wfFrom_mono (Nat.le_succ_of_le hlb) hm
        · next hv =>
          simp only [Memory.wfFrom, Bool.and_eq_true, decide_eq_true_eq]
          exact ⟨⟨⟨hl, hs⟩, hv⟩, hm⟩
      · next h1 h2 =>
        simp only [Memory.wfFrom, Bool.and_eq_true, decide_eq_true_eq]
        exact ⟨⟨⟨hlb, hbs⟩, hw⟩, Memory.wfFrom_write v hs (by omega) hm⟩

theorem Memory.wf_write {m : Memory} {a : Nat} (v : Byte) (hs : a < Memory.size) (h : m.wf = true) :
    (m.write a v).wf = true := Memory.wfFrom_write v hs (Nat.zero_le a) h

theorem Memory.wf_writeBytes : ∀ (vs : List Byte) {m : Memory} {a : Nat},
    a + vs.length ≤ Memory.size → m.wf = true → (m.writeBytes a vs).wf = true
  | [], _, _, _, h => h
  | v :: vs, m, a, hs, h => by
    simp only [List.length_cons] at hs
    exact Memory.wf_writeBytes vs (by omega) (Memory.wf_write v (by omega) h)

/-- Writing a page keeps the canonical form. -/
theorem Memory.wf_writePage (n : Nat) (data : List Byte) {m : Memory} (h : m.wf = true) :
    (m.writePage n data).wf = true := by
  unfold Memory.writePage
  split
  · next hn =>
    refine Memory.wf_writeBytes _ ?_ h
    have : (data.take Config.pageBytes).length ≤ Config.pageBytes := List.length_take_le _ _
    have hn' : (n + 1) * Config.pageBytes ≤ Config.imagePages * Config.pageBytes :=
      Nat.mul_le_mul_right _ hn
    rw [Nat.succ_mul] at hn'
    simp only [Memory.size]
    omega
  · exact h

/-- An erased region is canonical. -/
theorem Memory.wf_nil : Memory.wf [] = true := rfl

/-- In a canonical memory nothing below the first listed address is listed. -/
theorem Memory.read_below {a : Nat} : ∀ {m : Memory} {lo : Nat}, a < lo → Memory.wfFrom lo m = true →
    m.read a = Memory.erasedByte
  | [], _, _, _ => rfl
  | (b, w) :: m, lo, h, hm => by
    simp only [Memory.wfFrom, Bool.and_eq_true, decide_eq_true_eq] at hm
    have : b ≠ a := by omega
    simp only [Memory.read, this, if_false]
    exact Memory.read_below (by omega) hm.2

theorem Memory.read_writeFrom {a : Nat} (v : Byte) (c : Nat) : ∀ {m : Memory} {lo : Nat},
    Memory.wfFrom lo m = true → (m.write a v).read c = if c = a then v else m.read c
  | [], lo, _ => by
    unfold Memory.write
    split
    · next hv => simp [Memory.read, hv]
    · simp only [Memory.read]
      by_cases h : a = c
      · simp [h]
      · have : c ≠ a := fun e => h e.symm
        simp [h, this]
  | (b, w) :: m, lo, hm => by
    simp only [Memory.wfFrom, Bool.and_eq_true, decide_eq_true_eq] at hm
    unfold Memory.write
    split
    · next hab =>
      have hb : Memory.read ((b, w) :: m) a = Memory.erasedByte := by
        have : b ≠ a := by omega
        simp only [Memory.read, this, if_false]
        exact Memory.read_below (by omega) hm.2
      split
      · next hv =>
        by_cases h : c = a
        · subst h; simp [hv, hb]
        · simp [h]
      · by_cases h : c = a
        · subst h; simp [Memory.read]
        · have h' : a ≠ c := fun e => h e.symm
          simp [Memory.read, h, h']
    · split
      · next hab =>
        subst hab
        split
        · next hv =>
          by_cases h : c = a
          · subst h
            simp only [if_true, hv]
            exact Memory.read_below (Nat.lt_succ_self _) hm.2
          · have h' : a ≠ c := fun e => h e.symm
            simp [Memory.read, h, h']
        · by_cases h : c = a
          · subst h; simp [Memory.read]
          · have h' : a ≠ c := fun e => h e.symm
            simp [Memory.read, h, h']
      · next h1 h2 =>
        by_cases h : b = c
        · have : c ≠ a := by omega
          simp [Memory.read, h, this]
        · simp only [Memory.read, h, if_false]
          exact Memory.read_writeFrom v c hm.2

/-- A byte written is the byte read; every other byte reads as before. -/
theorem Memory.read_write {m : Memory} (h : m.wf = true) (a c : Nat) (v : Byte) :
    (m.write a v).read c = if c = a then v else m.read c := Memory.read_writeFrom v c h

/-! ### The store's operations keep both regions canonical -/

@[simp] theorem Nv.wf_blank : Nv.blank.wf = true := rfl

theorem Nv.wf_setImage {n : Nv} (c : UnitClass) {m : Memory} (hn : n.wf = true) (hm : m.wf = true) :
    (n.setImage c m).wf = true := by
  simp only [Nv.wf, Bool.and_eq_true] at hn ⊢
  cases c
  · exact ⟨hm, hn.2⟩
  · exact ⟨hn.1, hm⟩

theorem Nv.wf_image {n : Nv} (c : UnitClass) (hn : n.wf = true) : (n.image c).wf = true := by
  simp only [Nv.wf, Bool.and_eq_true] at hn
  cases c
  · exact hn.1
  · exact hn.2

@[simp] theorem Nv.wf_rewritten (n : Nv) (f : StoreWord → Bool) : (n.rewritten f).wf = n.wf := rfl

@[simp] theorem Nv.wf_setHeader (n : Nv) (c : UnitClass) (h : Stored ImageHeader) :
    (n.setHeader c h).wf = n.wf := by cases c <;> rfl

/-- An operation that ends leaves both regions canonical. -/
theorem Nv.wf_completed {n : Nv} (p : Part) (op : StoreOp) (h : n.wf = true) :
    (n.completed p op).wf = true := by
  cases op with
  | profileSave f => exact h
  | retireSave l => exact h
  | regionErase t =>
    cases t with
    | imageBegin c =>
      simp only [Nv.completed, Nv.writeHeader, Nv.eraseImage, Nv.wf_rewritten, Nv.wf_setHeader]
      exact Nv.wf_setImage c h Memory.wf_nil
    | format => rfl
  | pageWrite c k d =>
    simp only [Nv.completed, Nv.writeImagePage, Nv.wf_rewritten]
    exact Nv.wf_setImage c h (Memory.wf_writePage k d (Nv.wf_image c h))
  | headerWrite c x m =>
    simp only [Nv.completed, Nv.writeHeader, Nv.wf_rewritten, Nv.wf_setHeader]
    exact h

theorem wf_imageLeft (k : Nat) {m : Memory} (h : m.wf = true) : (imageLeft k m).wf = true := by
  unfold imageLeft
  split
  · rfl
  · exact h

/-- A full reset that cuts an operation short leaves both regions canonical. -/
theorem Nv.wf_interrupted {n : Nv} (free : Nat) (op : Option StoreOp) (h : n.wf = true) :
    (n.interrupted free op).wf = true := by
  cases op with
  | none => exact h
  | some op =>
    cases op with
    | profileSave f => exact h
    | retireSave l => exact h
    | regionErase t =>
      cases t with
      | imageBegin c => simp only [Nv.interrupted, Nv.wf_setHeader]; exact h
      | format =>
        simp only [Nv.wf, Bool.and_eq_true] at h
        simp only [Nv.interrupted, Nv.wf, Bool.and_eq_true]
        exact ⟨wf_imageLeft _ h.1, wf_imageLeft _ h.2⟩
    | pageWrite c k d => exact h
    | headerWrite c x m => simp only [Nv.interrupted, Nv.wf_setHeader]; exact h

/-- The memory at reset is canonical. -/
theorem State.reset_nv_wf : State.reset.nv.wf = true := rfl

end Sys2Proof.Machine
end

