-- ==== Sys2Proof/Laws/Operands.lean ====
section
/-! SUPPORT. What the operand forms give on the numbers of the manual's objects: the object on its number,
nothing on an absent or malformed field or on a number out of range. -/

namespace Sys2Proof.Machine

@[simp] theorem indexField_val_fin {n : Nat} (lo : Nat) (i : Fin n) :
    indexField lo n (.val (i.val + lo)) = some i := by
  have h : lo ≤ i.val + lo ∧ i.val + lo - lo < n := ⟨Nat.le_add_left .., by omega⟩
  simp only [indexField, h, dite_true, and_self]
  exact congrArg some (Fin.ext (by simp))

@[simp] theorem tourField_val (t : TourNo) : tourField (.val (t.val + 1)) = some t := indexField_val_fin 1 t
@[simp] theorem langField_val (l : LangNo) : langField (.val (l.val + 1)) = some l := indexField_val_fin 1 l
@[simp] theorem zoneField_val (z : ZoneNo) : zoneField (.val z.val) = some z := indexField_val_fin 0 z
@[simp] theorem rackField_val (r : RackNo) : rackField (.val r.val) = some r := indexField_val_fin 0 r
@[simp] theorem channelField_val (c : ChannelNo) : channelField (.val c.val) = some c := indexField_val_fin 0 c
@[simp] theorem issueField_val (n : IssueNo) : issueField (.val (n.val + 1)) = some n := indexField_val_fin 1 n

@[simp] theorem unitField_val {u : UnitId} (h : validUnit u = true) : unitField (.val u) = some u := by
  simp [unitField, h]

@[simp] theorem bayField_val (b : BayRef) : bayField (.val ⟨b.rack.val, b.no.val + 1⟩) = some b := by
  have h : b.rack.val < 8 ∧ 1 ≤ b.no.val + 1 ∧ b.no.val + 1 - 1 < 24 :=
    ⟨b.rack.isLt, Nat.le_add_left .., by have := b.no.isLt; omega⟩
  simp only [bayField, h, and_self, dite_true]
  rfl

@[simp] theorem rangeField_val {lo hi n : Nat} (h : lo ≤ n ∧ n ≤ hi) : rangeField lo hi (.val n) = some n := by
  simp [rangeField, h]

@[simp] theorem labelField_val {t : Text} (h : t.length ≤ 16) : labelField (.val t) = some t := by
  simp [labelField, h]

@[simp] theorem fieldVal_val {α : Type} (a : α) : fieldVal (.val a) = some a := rfl

theorem indexField_out {lo n v : Nat} (h : v < lo ∨ lo + n ≤ v) : indexField lo n (.val v) = none := by
  have : ¬(lo ≤ v ∧ v - lo < n) := by omega
  simp [indexField, this]

end Sys2Proof.Machine
end

