-- ==== Sys2Proof/Laws/Link.lean ====
section
/-! SUPPORT. Everything the link port's operations can do: what the arbiter takes, what a command leaves by
its owner's answer, what an event leaves, a full reset, and the bytes of every frame it sends. -/

namespace Sys2Proof.Machine

/-! ### The arbiter -/

theorem State.arbitrate_busy {s : State} (h : s.link.line.isSome = true) : s.arbitrate = s := by
  unfold State.arbitrate
  cases hl : s.link.line with
  | none => simp [hl] at h
  | some x => rfl

/-- With a reply ready the arbiter takes no report. -/
theorem State.arbitrate_part {s : State} (h : s.link.ready ≠ []) : s.arbitrate.part = s.part := by
  unfold State.arbitrate
  split
  · rfl
  · split
    · rfl
    · next hr => exact absurd hr h

theorem State.arbitrate_report (s : State) : ReportStep s.part s.arbitrate.part := by
  unfold State.arbitrate
  split
  · rfl
  · split
    · rfl
    · split <;> rfl

theorem State.arbitrate_nv (s : State) : s.arbitrate.nv = s.nv := by
  unfold State.arbitrate
  split
  · rfl
  · split
    · rfl
    · split <;> rfl

theorem State.arbitrate_pending (s : State) : s.arbitrate.pending = s.pending := by
  unfold State.arbitrate
  split
  · rfl
  · split
    · rfl
    · split <;> rfl

theorem State.arbitrate_framer (s : State) : s.arbitrate.link.framer = s.link.framer := by
  unfold State.arbitrate
  split
  · rfl
  · split
    · rfl
    · split <;> rfl

theorem State.arbitrate_slot (s : State) : s.arbitrate.link.slot = s.link.slot := by
  unfold State.arbitrate
  split
  · rfl
  · split
    · rfl
    · split <;> rfl

/-- A reply that is ready is on the line or ready after the arbiter has acted. -/
theorem State.arbitrate_awaits {s : State} {r : Reply} (h : r ∈ s.link.ready) : s.arbitrate.awaits r := by
  unfold State.arbitrate
  split
  · exact .inr h
  · split
    · next q rest hr =>
      rw [hr] at h
      cases List.mem_cons.mp h with
      | inl e => exact .inl (by simp [e])
      | inr e => exact .inr e
    · next hr => rw [hr] at h; cases h

/-- After the arbiter a free serializer has nothing ready. -/
theorem State.arbitrate_settled (s : State) : s.arbitrate.settled = true := by
  unfold State.arbitrate
  split
  · next x hx => simp [State.settled, hx]
  · next hl =>
    split
    · simp [State.settled]
    · next hr =>
      split
      · next ht =>
        have : s.part.reports = [] := by
          unfold Part.topReport at ht
          split at ht
          · cases ht
          · cases hp : s.part.reports with
            | nil => rfl
            | cons a l => simp [hp] at ht
        simp [State.settled, hr, this]
      · simp [State.settled]

theorem State.arbitrate_busyWaiting (s : State) : s.arbitrate.link.busyWaiting ≤ s.link.busyWaiting := by
  unfold State.arbitrate
  split
  · exact Nat.le_refl _
  · split
    · next r rest hr =>
      simp only [Link.busyWaiting, hr, List.countP_cons]
      exact Nat.le_add_right _ _
    · split <;> exact Nat.le_refl _

/-! ### Commands -/

theorem State.hostCommand_deaf {s : State} (h : s.deaf = true) (tag : Byte) (verb : Text) (o : Owner) :
    s.hostCommand tag verb o = s := by simp [State.hostCommand, h]

/-- A command that fills the slot is handed to its owner; a command answered at once leaves the part its
owner made. -/
theorem State.hostCommand_reply {s : State} {tag : Byte} (h : s.takes tag) (verb : Text) {o : Owner} {q : Part}
    {r : ResultWord} {fs : Fields} (ho : o s.nv s.part = (q, .reply r fs)) :
    s.answered (s.hostCommand tag verb o) tag verb r fs ∧ (s.hostCommand tag verb o).part = q := by
  obtain ⟨hd, ht, hs⟩ := h
  have e : s.hostCommand tag verb o =
      ({ s with link := { framer := .hunting, slot := some ⟨tag, verb, false⟩,
                          ready := s.link.ready ++ [⟨true, tag, verb, r, fs⟩], line := s.link.line },
                part := q } : State).arbitrate := by
    have ht' : (tag = 0#8) = False := eq_false ht
    simp [State.hostCommand, hd, ht', hs, State.carryOut, ho, State.settleAnswer, State.reply]
  rw [e]
  refine ⟨⟨?_, ?_, ?_, ?_, ?_⟩, ?_⟩
  · rw [State.arbitrate_framer]
  · rw [State.arbitrate_slot]
  · exact State.arbitrate_awaits (by simp)
  · rw [State.arbitrate_nv]
  · rw [State.arbitrate_pending]
  · rw [State.arbitrate_part]
    simp

/-- A command whose reply waits leaves the part its owner made, up to a report taken. -/
theorem State.hostCommand_waits {s : State} {tag : Byte} (h : s.takes tag) (verb : Text) {o : Owner} {q : Part}
    (ho : o s.nv s.part = (q, .waits)) :
    s.held (s.hostCommand tag verb o) tag verb ∧ ReportStep q (s.hostCommand tag verb o).part := by
  obtain ⟨hd, ht, hs⟩ := h
  have e : s.hostCommand tag verb o =
      ({ s with link := { s.link with framer := .hunting, slot := some ⟨tag, verb, false⟩ }, part := q }
        : State).arbitrate := by
    have ht' : (tag = 0#8) = False := eq_false ht
    simp [State.hostCommand, hd, ht', hs, State.carryOut, ho, State.settleAnswer]
  rw [e]
  refine ⟨⟨?_, ?_, ?_, ?_⟩, ?_⟩
  · rw [State.arbitrate_framer]
  · rw [State.arbitrate_slot]
  · rw [State.arbitrate_nv]
  · rw [State.arbitrate_pending]
  · exact State.arbitrate_report _

theorem State.settleAnswer_nv (s : State) (a : Answer) : (s.settleAnswer a).nv = s.nv := by
  cases a <;> simp only [State.settleAnswer, State.reply] <;> (try split) <;> rfl

theorem State.settleAnswer_pending (s : State) (a : Answer) : (s.settleAnswer a).pending = s.pending := by
  cases a <;> simp only [State.settleAnswer, State.reply] <;> (try split) <;> rfl

/-- No host command writes the store. -/
theorem State.hostCommand_nv (s : State) (tag : Byte) (verb : Text) (o : Owner) :
    (s.hostCommand tag verb o).nv = s.nv := by
  unfold State.hostCommand
  split
  · rfl
  · dsimp only
    split
    · rfl
    · split
      · rw [State.arbitrate_nv]; unfold State.busy; split <;> rfl
      · rw [State.carryOut, State.arbitrate_nv, State.settleAnswer_nv]

/-- No host command changes the queue of pending commands. -/
theorem State.hostCommand_pending (s : State) (tag : Byte) (verb : Text) (o : Owner) :
    (s.hostCommand tag verb o).pending = s.pending := by
  unfold State.hostCommand
  split
  · rfl
  · dsimp only
    split
    · rfl
    · split
      · rw [State.arbitrate_pending]; unfold State.busy; split <;> rfl
      · rw [State.carryOut, State.arbitrate_pending, State.settleAnswer_pending]

/-- A command taken while the slot holds one leaves the part, up to a report taken, and the slot. -/
theorem State.hostCommand_busy {s : State} {tag : Byte} (hd : s.deaf = false) (ht : tag ≠ 0) {x : Slot}
    (hs : s.link.slot = some x) (verb : Text) (o : Owner) :
    ReportStep s.part (s.hostCommand tag verb o).part ∧ (s.hostCommand tag verb o).link.slot = some x ∧
    (s.link.busyWaiting < Config.busyReplies →
      (s.hostCommand tag verb o).awaits ⟨false, tag, verb, .busy, []⟩) := by
  have e : s.hostCommand tag verb o =
      (({ s with link := { s.link with framer := .hunting } } : State).busy tag verb).arbitrate := by
    have ht' : (tag = 0#8) = False := eq_false ht
    simp [State.hostCommand, hd, ht', hs]
  rw [e]
  refine ⟨?_, ?_, fun hb => ?_⟩
  · refine ReportStep.trans ?_ (State.arbitrate_report _)
    unfold State.busy; split <;> rfl
  · rw [State.arbitrate_slot]
    unfold State.busy; split <;> exact hs
  · apply State.arbitrate_awaits
    unfold State.busy
    split
    · simp
    · next h => exact absurd hb h

/-! ### Events -/

theorem State.event_deaf {s : State} (h : s.deaf = true) (f : State → State) : s.event f = s := by
  simp [State.event, h]

/-- An event that changes the part alone: nothing during the load; otherwise the part is what the event
makes of it, up to a report taken. -/
theorem State.partEvent_part {s : State} (h : s.deaf = false) (f : Nv → Part → Part) :
    ReportStep (f s.nv s.part) (s.partEvent f).part := by
  simp only [State.partEvent, State.event, h]
  exact State.arbitrate_report _

theorem State.partEvent_after (s : State) (f : Nv → Part → Part) : s.after (s.partEvent f) := by
  unfold State.partEvent State.event
  split
  · exact ⟨rfl, rfl, rfl, rfl, fun _ => rfl⟩
  · refine ⟨?_, ?_, ?_, ?_, fun h => ?_⟩
    · rw [State.arbitrate_framer]
    · rw [State.arbitrate_slot]
    · rw [State.arbitrate_nv]
    · rw [State.arbitrate_pending]
    · rw [State.arbitrate_busy]
      exact h

theorem State.after_trans {s t u : State} (h : s.after t) (k : t.after u) : s.after u := by
  obtain ⟨h1, h2, h3, h4, h5⟩ := h
  obtain ⟨k1, k2, k3, k4, k5⟩ := k
  refine ⟨k1.trans h1, k2.trans h2, k3.trans h3, k4.trans h4, fun hl => ?_⟩
  have e := h5 hl
  exact (k5 (by rw [e]; exact hl)).trans e

/-! ### The bytes of a frame (R192) -/

theorem fieldsText_cons (f : Text × Text) (l : Fields) :
    fieldsText (f :: l) = ' ' :: fieldText f ++ fieldsText l := by
  simp [fieldsText]

theorem fieldsWithin_length (n : Nat) (l : Fields) : (fieldsText (fieldsWithin n l)).length ≤ n := by
  induction l generalizing n with
  | nil => simp [fieldsWithin, fieldsText]
  | cons f l ih =>
    simp only [fieldsWithin]
    split
    · have := ih (n - ((fieldText f).length + 1))
      simp only [fieldsText_cons, List.length_append, List.length_cons]
      omega
    · simp [fieldsText]

/-- Fields that fit are all kept. -/
theorem fieldsWithin_of_fits {n : Nat} {l : Fields} (h : (fieldsText l).length ≤ n) : fieldsWithin n l = l := by
  induction l generalizing n with
  | nil => rfl
  | cons f l ih =>
    simp only [fieldsText_cons, List.length_append, List.length_cons] at h
    simp only [fieldsWithin]
    rw [if_pos (by omega), ih (by omega)]

theorem composedText_length {head : Text} (h : head.length ≤ maxBody) (l : Fields) :
    (composedText head l).length ≤ maxBody := by
  have := fieldsWithin_length (maxBody - head.length) l
  simp only [composedText, List.length_append]
  omega

/-- A body that fits is sent whole. -/
theorem composedText_of_fits {head : Text} {l : Fields} (h : (head ++ fieldsText l).length ≤ maxBody) :
    composedText head l = head ++ fieldsText l := by
  rw [List.length_append] at h
  rw [composedText, fieldsWithin_of_fits (by omega)]

theorem replyHead_length (verb : Text) (r : ResultWord) : (replyHead verb r).length ≤ maxBody := by
  simp only [replyHead]
  split
  · rwa [List.length_append]
  · cases r <;> decide

/-- Every reply and every report fits in a body of 1,024 bytes. -/
theorem Reply.text_length (r : Reply) : r.text.length ≤ maxBody := composedText_length (replyHead_length _ _) _

theorem Report.text_length (r : Report) : r.text.length ≤ maxBody := composedText_length (by decide) _

/-- A reply that fits is the verb, the result word and every field. -/
theorem Reply.text_of_fits {r : Reply}
    (h : (r.verb ++ ' ' :: resultText r.result ++ fieldsText r.fields).length ≤ maxBody) :
    r.text = r.verb ++ ' ' :: resultText r.result ++ fieldsText r.fields := by
  have hv : r.verb.length + (' ' :: resultText r.result).length ≤ maxBody := by
    simp only [List.length_append] at h
    omega
  simp only [Reply.text, replyHead]
  rw [if_pos hv]
  exact composedText_of_fits h

/-- The length bytes of a frame give the bytes from kind to the end of body. -/
theorem frameBytes_layout (kind tag : Byte) {body : List Byte} (h : body.length ≤ maxBody) :
    ∃ hi lo, lengthOf hi lo = body.length + 2 ∧ frameBytes kind tag body =
      0xD5#8 :: hi :: lo :: kind :: tag :: body ++ bytes16 (crc (hi :: lo :: kind :: tag :: body)) := by
  refine ⟨_, _, ?_, rfl⟩
  have hb : body.length ≤ 1024 := h
  simp only [lengthOf, BitVec.toNat_setWidth, BitVec.toNat_ushiftRight, BitVec.toNat_ofNat, Nat.shiftRight_eq_div_pow]
  omega

/-- Every frame the part sends has the layout of R192, a length of 2 to 1,026 and kind REPLY or REPORT. -/
theorem OutFrame.bytes_layout (f : OutFrame) :
    ∃ hi lo kind tag body, 2 ≤ lengthOf hi lo ∧ lengthOf hi lo ≤ 1026 ∧ (kind = 2 ∨ kind = 3) ∧
      body.length + 2 = lengthOf hi lo ∧
      f.bytes = 0xD5#8 :: hi :: lo :: kind :: tag :: body ++ bytes16 (crc (hi :: lo :: kind :: tag :: body)) := by
  have key : ∀ (kind tag : Byte) (t : Text), (kind = 2 ∨ kind = 3) → t.length ≤ maxBody →
      ∃ hi lo kind' tag' body, 2 ≤ lengthOf hi lo ∧ lengthOf hi lo ≤ 1026 ∧ (kind' = 2 ∨ kind' = 3) ∧
        body.length + 2 = lengthOf hi lo ∧ frameBytes kind tag (textBytes t) =
          0xD5#8 :: hi :: lo :: kind' :: tag' :: body ++ bytes16 (crc (hi :: lo :: kind' :: tag' :: body)) := by
    intro kind tag t hk ht
    have hl : (textBytes t).length ≤ 1024 := by
      simpa [textBytes] using show t.length ≤ 1024 from ht
    obtain ⟨hi, lo, h1, h2⟩ := frameBytes_layout kind tag (body := textBytes t) hl
    exact ⟨hi, lo, kind, tag, _, by omega, by omega, hk, h1.symm, h2⟩
  cases f with
  | reply r => exact key _ _ _ (.inl rfl) r.text_length
  | report r => exact key _ _ _ (.inr rfl) r.text_length

end Sys2Proof.Machine
end

