-- ==== Sys2Proof/Laws/PerInstr.lean ====
section
/-! SUPPORT. Per command: the tag of a well-formed host verb is never 0, the tag a COMMAND frame with which
is discarded (R193). -/

namespace Sys2Proof.Laws.WellFormedTag

/-- A well-formed command that carries a tag carries one of 1 to 255. -/
def Statement (i : Instr) : Prop := i.wf = true → ∀ tag, i.hostTag = some tag → tag ≠ 0

theorem of_wf (i : Instr) : Statement i := by
  intro h tag ht
  simp only [Instr.wf, ht, Bool.and_eq_true, bne_iff_ne] at h
  exact h.1

theorem powerOn (straps : Straps) :
    Statement (.powerOn straps) := of_wf _

theorem resetLine (straps : Straps) :
    Statement (.resetLine straps) := of_wf _

theorem startUpLoadDone :
    Statement (.startUpLoadDone) := of_wf _

theorem lineBreak :
    Statement (.lineBreak) := of_wf _

theorem characterError :
    Statement (.characterError) := of_wf _

theorem hostFrameDiscarded (bytes : List Byte) :
    Statement (.hostFrameDiscarded bytes) := of_wf _

theorem audio (track : Byte) (body : List Byte) :
    Statement (.audio track body) := of_wf _

theorem command (tag : Byte) (body : List Byte) :
    Statement (.command tag body) := of_wf _

theorem replySent :
    Statement .replySent := of_wf _

theorem busyReplySent :
    Statement (.busyReplySent) := of_wf _

theorem reportSent :
    Statement (.reportSent) := of_wf _

theorem tourOpen (tag : Byte) (tour : HostField Nat) (label : HostField Text) (floor capacity : HostField Nat) :
    Statement (.tourOpen tag tour label floor capacity) := of_wf _

theorem tourStart (tag : Byte) (tour : HostField Nat) :
    Statement (.tourStart tag tour) := of_wf _

theorem tourPause (tag : Byte) (tour : HostField Nat) :
    Statement (.tourPause tag tour) := of_wf _

theorem tourClose (tag : Byte) (tour : HostField Nat) :
    Statement (.tourClose tag tour) := of_wf _

theorem tourCapacity (tag : Byte) (tour capacity : HostField Nat) :
    Statement (.tourCapacity tag tour capacity) := of_wf _

theorem tourRead (tag : Byte) (tour : HostField Nat) :
    Statement (.tourRead tag tour) := of_wf _

theorem tourVoiceAdd (tag : Byte) (tour language : HostField Nat) (unit : HostField UnitId) :
    Statement (.tourVoiceAdd tag tour language unit) := of_wf _

theorem tourVoiceDrop (tag : Byte) (tour language : HostField Nat) :
    Statement (.tourVoiceDrop tag tour language) := of_wf _

theorem unitRead (tag : Byte) (unit : HostField UnitId) :
    Statement (.unitRead tag unit) := of_wf _

theorem unitList (tag : Byte) (start count : HostField Nat) :
    Statement (.unitList tag start count) := of_wf _

theorem unitForget (tag : Byte) (unit : HostField UnitId) :
    Statement (.unitForget tag unit) := of_wf _

theorem unitUnassign (tag : Byte) (unit : HostField UnitId) :
    Statement (.unitUnassign tag unit) := of_wf _

theorem unitRetune (tag : Byte) (unit : HostField UnitId) (tour language : HostField Nat) :
    Statement (.unitRetune tag unit tour language) := of_wf _

theorem unitLocate (tag : Byte) (unit : HostField UnitId) :
    Statement (.unitLocate tag unit) := of_wf _

theorem unitRetire (tag : Byte) (unit : HostField UnitId) :
    Statement (.unitRetire tag unit) := of_wf _

theorem retirePurge (tag : Byte) (unit : HostField UnitId) :
    Statement (.retirePurge tag unit) := of_wf _

theorem retireList (tag : Byte) (start count : HostField Nat) :
    Statement (.retireList tag start count) := of_wf _

theorem zoneRead (tag : Byte) (zone : HostField Nat) :
    Statement (.zoneRead tag zone) := of_wf _

theorem zoneSlots (tag : Byte) (zone : HostField Nat) :
    Statement (.zoneSlots tag zone) := of_wf _

theorem zoneStatsClear (tag : Byte) (zone : HostField ZoneSel) :
    Statement (.zoneStatsClear tag zone) := of_wf _

theorem houseStart (tag : Byte) (zones : HostField ZoneList) (languages : HostField (List Nat)) :
    Statement (.houseStart tag zones languages) := of_wf _

theorem houseZones (tag : Byte) (zones : HostField ZoneList) :
    Statement (.houseZones tag zones) := of_wf _

theorem houseStop (tag : Byte) :
    Statement (.houseStop tag) := of_wf _

theorem houseRead (tag : Byte) :
    Statement (.houseRead tag) := of_wf _

theorem rackRead (tag : Byte) (rack : HostField Nat) :
    Statement (.rackRead tag rack) := of_wf _

theorem bayRead (tag : Byte) (bay : HostField BayName) :
    Statement (.bayRead tag bay) := of_wf _

theorem bayDisable (tag : Byte) (bay : HostField BayName) :
    Statement (.bayDisable tag bay) := of_wf _

theorem bayEnable (tag : Byte) (bay : HostField BayName) :
    Statement (.bayEnable tag bay) := of_wf _

theorem faultClear (tag : Byte) (bay : HostField BayName) :
    Statement (.faultClear tag bay) := of_wf _

theorem faultRead (tag : Byte) (bay : HostField BayName) :
    Statement (.faultRead tag bay) := of_wf _

theorem channelClear (tag : Byte) (channel : HostField Nat) :
    Statement (.channelClear tag channel) := of_wf _

theorem channelStop (tag : Byte) (channel : HostField Nat) :
    Statement (.channelStop tag channel) := of_wf _

theorem channelRead (tag : Byte) (channel : HostField Nat) :
    Statement (.channelRead tag channel) := of_wf _

theorem jobMaint (tag : Byte) (bay : HostField BayName) (op : HostField MaintOp) (area : HostField Area) (addr count : HostField Nat) (data : HostField (List Byte)) :
    Statement (.jobMaint tag bay op area addr count data) := of_wf _

theorem jobRefresh (tag : Byte) (bay : HostField BayName) :
    Statement (.jobRefresh tag bay) := of_wf _

theorem jobCancel (tag : Byte) (job : HostField Nat) :
    Statement (.jobCancel tag job) := of_wf _

theorem jobRead (tag : Byte) (job : HostField Nat) :
    Statement (.jobRead tag job) := of_wf _

theorem jobQueueRead (tag : Byte) :
    Statement (.jobQueueRead tag) := of_wf _

theorem jobStatsClear (tag : Byte) :
    Statement (.jobStatsClear tag) := of_wf _

theorem imageBegin (tag : Byte) (slot : HostField UnitClass) (revision pages : HostField Nat) (checksum : HostField (BitVec 32)) :
    Statement (.imageBegin tag slot revision pages checksum) := of_wf _

theorem imagePage (tag : Byte) (slot : HostField UnitClass) (page : HostField Nat) (data : HostField (List Byte)) :
    Statement (.imagePage tag slot page data) := of_wf _

theorem imageSeal (tag : Byte) (slot : HostField UnitClass) :
    Statement (.imageSeal tag slot) := of_wf _

theorem imageRead (tag : Byte) (slot : HostField UnitClass) :
    Statement (.imageRead tag slot) := of_wf _

theorem issue (tag : Byte) (rack : HostField Nat) (cls : HostField UnitClass) (unit : HostField UnitId) (tour language : HostField Nat) :
    Statement (.issue tag rack cls unit tour language) := of_wf _

theorem issueCancel (tag : Byte) (issue : HostField Nat) :
    Statement (.issueCancel tag issue) := of_wf _

theorem issueRead (tag : Byte) (issue : HostField Nat) :
    Statement (.issueRead tag issue) := of_wf _

theorem reportEnable (tag : Byte) (on off : HostField KindList) :
    Statement (.reportEnable tag on off) := of_wf _

theorem set (tag : Byte) (fields : List (Param × SetValue)) :
    Statement (.set tag fields) := of_wf _

theorem get (tag : Byte) (names : HostField ParamList) :
    Statement (.get tag names) := of_wf _

theorem profileSave (tag : Byte) :
    Statement (.profileSave tag) := of_wf _

theorem storeFormat (tag : Byte) :
    Statement (.storeFormat tag) := of_wf _

theorem restart (tag : Byte) :
    Statement (.restart tag) := of_wf _

theorem status (tag : Byte) :
    Statement (.status tag) := of_wf _

theorem profileSaveDone :
    Statement (.profileSaveDone) := of_wf _

theorem retireListSaveDone :
    Statement (.retireListSaveDone) := of_wf _

theorem regionEraseDone :
    Statement (.regionEraseDone) := of_wf _

theorem imagePageWriteDone :
    Statement (.imagePageWriteDone) := of_wf _

theorem headerWriteDone :
    Statement (.headerWriteDone) := of_wf _

theorem zoneHello (zone : ZoneNo) :
    Statement (.zoneHello zone) := of_wf _

theorem cycleMark (zone : ZoneNo) (mark : CycleMark) :
    Statement (.cycleMark zone mark) := of_wf _

theorem downTimerExpiry (zone : ZoneNo) :
    Statement (.downTimerExpiry zone) := of_wf _

theorem housePeriodElapse :
    Statement (.housePeriodElapse) := of_wf _

theorem lingerExpiry (zone : ZoneNo) (stream : CarrStream) :
    Statement (.lingerExpiry zone stream) := of_wf _

theorem silenceExpiry (unit : UnitId) :
    Statement (.silenceExpiry unit) := of_wf _

theorem noticeLifeExpiry (unit : UnitId) :
    Statement (.noticeLifeExpiry unit) := of_wf _

theorem pollTimerElapse (rack : RackNo) :
    Statement (.pollTimerElapse rack) := of_wf _

theorem busTurnTimeout :
    Statement (.busTurnTimeout) := of_wf _

theorem rackHello (rack : RackNo) (bayCount revision : Nat) :
    Statement (.rackHello rack bayCount revision) := of_wf _

theorem setupDone (rack : RackNo) :
    Statement (.setupDone rack) := of_wf _

theorem surveyAnswer (rack : RackNo) (occupants : List (Option (UnitId × UnitClass))) :
    Statement (.surveyAnswer rack occupants) := of_wf _

theorem pollAnswer (rack : RackNo) (events : List PollEvent) :
    Statement (.pollAnswer rack events) := of_wf _

theorem dockAccept (rack : RackNo) :
    Statement (.dockAccept rack) := of_wf _

theorem rampTimerElapse (rack : RackNo) :
    Statement (.rampTimerElapse rack) := of_wf _

theorem holdTimerElapse (rack : RackNo) :
    Statement (.holdTimerElapse rack) := of_wf _

theorem chargeWatchExpiry (bay : BayRef) :
    Statement (.chargeWatchExpiry bay) := of_wf _

theorem dockNoAnswerLimit (channel : ChannelNo) :
    Statement (.dockNoAnswerLimit channel) := of_wf _

theorem limitTimerExpiry (issue : IssueNo) :
    Statement (.limitTimerExpiry issue) := of_wf _

theorem pickTimerExpiry (issue : IssueNo) :
    Statement (.pickTimerExpiry issue) := of_wf _

end Sys2Proof.Laws.WellFormedTag
end

