-- ==== Sys2Proof/Laws/Racks.lean ====
section
/-! SUPPORT. What the issue controller, the ends and steps of jobs, the fault supervisor and the events of
a rack module may change: each is a rack step. -/

namespace Sys2Proof.Machine

/-! ### Updates that are rack steps -/

theorem RackStep.setRack (p : Part) (r : RackNo) (x : Rack) (h : x.shell = (p.rack r).shell) :
    RackStep p (p.setRack r x) := ⟨rfl, map_set_self p.racks r.val r.isLt x Rack.shell h, rfl⟩

theorem RackStep.modRack (p : Part) (r : RackNo) (f : Rack → Rack) (h : (f (p.rack r)).shell = (p.rack r).shell) :
    RackStep p (p.modRack r f) := RackStep.setRack p r _ h

theorem RackStep.setBay (p : Part) (b : BayRef) (y : Bay) : RackStep p (p.setBay b y) :=
  RackStep.modRack p b.rack _ rfl

theorem RackStep.modBay (p : Part) (b : BayRef) (f : Bay → Bay) : RackStep p (p.modBay b f) :=
  RackStep.setBay p b _

theorem RackStep.setIssue (p : Part) (n : IssueNo) (x : Issue) : RackStep p (p.setIssue n x) := ⟨rfl, rfl, rfl⟩

theorem RackStep.modIssue (p : Part) (n : IssueNo) (f : Issue → Issue) : RackStep p (p.modIssue n f) :=
  RackStep.setIssue p n _

theorem RackStep.modChannel (p : Part) (c : ChannelNo) (f : Channel → Channel) : RackStep p (p.modChannel c f) :=
  (EngineStep.modChannel p c f).toRack

theorem RackStep.modEntry (p : Part) (u : UnitId) (f : Entry → Entry) : RackStep p (p.modEntry u f) :=
  (AirStep.modEntry p u f).toRack

theorem RackStep.raiseWith (p : Part) (s : Source) (k : EventKind) (f : Attached → Attached) :
    RackStep p (p.raiseWith s k f) := (ReportStep.raiseWith p s k f).toRack

theorem RackStep.raise (p : Part) (s : Source) (k : EventKind) : RackStep p (p.raise s k) :=
  (ReportStep.raise p s k).toRack

theorem RackStep.readyEval (p : Part) (b : BayRef) : RackStep p (p.readyEval b) := (EngineStep.readyEval p b).toRack

theorem RackStep.releaseClaim (p : Part) (t : TourNo) : RackStep p (p.releaseClaim t) :=
  (AirStep.releaseClaim p t).toRack

/-! ### Issue records (spec 10) -/

theorem RackStep.enterPicking (p : Part) (n : IssueNo) : RackStep p (p.enterPicking n) := by
  simp only [Part.enterPicking]
  refine RackStep.trans ?_ (RackStep.raise _ _ _)
  split
  · exact RackStep.trans (RackStep.setIssue _ _ _) (RackStep.modBay _ _ _)
  · exact RackStep.setIssue _ _ _

theorem RackStep.settleBegin (p : Part) (n : IssueNo) (o : Outcome) : RackStep p (p.settleBegin n o) := by
  simp only [Part.settleBegin]
  split
  · exact RackStep.trans (RackStep.setIssue _ _ _) (RackStep.modBay _ _ _)
  · exact RackStep.setIssue _ _ _

theorem RackStep.freeIssue (p : Part) (n : IssueNo) : RackStep p (p.freeIssue n) := RackStep.setIssue _ _ _

theorem RackStep.settleUntune (q : Part) (n : IssueNo) (c d : Part → Bool) (k : EventKind) (ob : Option BayRef) :
    RackStep q (
      let p := match ob with
        | some b => ((if c q then (q.addUntune b).tryWork b else q)).readyEval b
        | none => q
      let p := p.raise (.issue n) k
      if d p then p.freeIssue n else p) := by
  have h (w : Part) (hw : RackStep q w) :
      RackStep q (if d (w.raise (.issue n) k) then (w.raise (.issue n) k).freeIssue n else w.raise (.issue n) k) := by
    cases d (w.raise (.issue n) k)
    · exact RackStep.trans hw (RackStep.raise _ _ _)
    · exact RackStep.trans hw (RackStep.trans (RackStep.raise _ _ _) (RackStep.freeIssue _ _))
  refine h _ ?_
  cases ob with
  | none => exact RackStep.refl _
  | some b =>
    refine RackStep.trans ?_ (RackStep.readyEval _ _)
    cases c q
    · exact RackStep.refl _
    · exact RackStep.trans (EngineStep.addUntune _ _).toRack (EngineStep.tryWork _ _).toRack

theorem RackStep.settleEnd (p : Part) (n : IssueNo) (o : Outcome) (x : Issue) :
    RackStep p (p.settleEnd n o x) := by
  have h (q : Part) (hq : RackStep p q) : RackStep p (
      let w := match x.bay with
        | some b => ((if o.untunes x then (q.addUntune b).tryWork b else q)).readyEval b
        | none => q
      let w := w.raise (.issue n) o.event
      if w.profile.disabledKinds.contains o.event then w.freeIssue n else w) :=
    RackStep.trans hq (RackStep.settleUntune q n (fun _ => o.untunes x)
      (fun w => w.profile.disabledKinds.contains o.event) _ _)
  unfold Part.settleEnd
  refine h _ ?_
  split
  · exact RackStep.refl _
  · exact RackStep.releaseClaim _ _
  · exact RackStep.refl _

theorem RackStep.settlePlain (p : Part) (n : IssueNo) (o : Outcome) : RackStep p (p.settlePlain n o) :=
  RackStep.trans (RackStep.settleBegin _ _ _) (RackStep.settleEnd _ _ _ _)

theorem RackStep.tuneEnded (p : Part) (k : Nat) (r : JobResult) : RackStep p (p.tuneEnded k r) := by
  simp only [Part.tuneEnded]
  split
  · exact RackStep.refl _
  · split
    · exact RackStep.trans (RackStep.trans (RackStep.modIssue _ _ _) (RackStep.modIssue _ _ _))
        (RackStep.enterPicking _ _)
    · exact RackStep.trans (RackStep.modIssue _ _ _) (RackStep.settlePlain _ _ _)
    · exact RackStep.trans (RackStep.modIssue _ _ _) (RackStep.settlePlain _ _ _)

/-! ### Ends of jobs (R162, R165, R167, R168) -/

theorem RackStep.identified (p : Part) (j : Job) (i : Ident) : RackStep p (p.identified j i) := by
  have h (q : Part) : RackStep q (
      let p := if i.tuned && !q.issueNames j.unit then q.addUntune j.bay else q
      match p.entry j.unit with
      | none => p
      | some e =>
        if p.profile.autoRefresh && (p.slot e.cls).isSealed && !(p.bay j.bay).refreshHold &&
            (e.fwState == .incomplete || decide (i.fw.toNat < (p.slot e.cls).revision)) then
          p.addRefresh j.bay
        else p) := by
    have h1 (w : Part) (hw : RackStep q w) : RackStep q (
        match w.entry j.unit with
        | none => w
        | some e =>
          if w.profile.autoRefresh && (w.slot e.cls).isSealed && !(w.bay j.bay).refreshHold &&
              (e.fwState == .incomplete || decide (i.fw.toNat < (w.slot e.cls).revision)) then
            w.addRefresh j.bay
          else w) := by
      split
      · exact hw
      · split
        · exact RackStep.trans hw (EngineStep.addRefresh _ _).toRack
        · exact hw
    refine h1 _ ?_
    split
    · exact (EngineStep.addUntune _ _).toRack
    · exact RackStep.refl _
  exact RackStep.trans (RackStep.trans (RackStep.modEntry p j.unit _) (RackStep.modBay _ j.bay _)) (h _)

theorem RackStep.kindEffects (p : Part) (j : Job) (r : JobResult) : RackStep p (p.kindEffects j r) := by
  unfold Part.kindEffects
  split
  · exact RackStep.identified _ _ _
  · exact RackStep.modBay _ _ _
  · exact RackStep.refl _

theorem RackStep.endJobWith {onMute : Part → BayRef → Part} (h : ∀ q b, RackStep q (onMute q b)) (p : Part)
    (j : Job) (r : JobResult) : RackStep p (p.endJobWith onMute j r) := by
  simp only [Part.endJobWith]
  refine RackStep.trans ?_ (RackStep.raise _ _ _)
  refine RackStep.trans ?_ (RackStep.readyEval _ _)
  refine RackStep.trans ?_ (EngineStep.tryWork _ _).toRack
  refine RackStep.trans ?_ (RackStep.kindEffects _ _ _)
  have h0 := RackStep.trans (EngineStep.dropJob p j).toRack (RackStep.modBay _ j.bay fun y =>
    { y with job := none, lastJob := some ⟨j.number, j.work.kind, r⟩ })
  have h1 := RackStep.trans h0 (RackStep.tuneEnded _ j.number r)
  split <;> split
  · exact RackStep.trans h1 (h _ _)
  · exact RackStep.trans h0 (h _ _)
  · exact h1
  · exact h0

theorem RackStep.endJob (p : Part) (j : Job) (r : JobResult) : RackStep p (p.endJob j r) :=
  RackStep.endJobWith (fun q _ => RackStep.refl q) p j r

theorem RackStep.abortJobs (p : Part) (js : List Job) (r : AbortReason) : RackStep p (p.abortJobs js r) :=
  RackStep.foldl (fun _ _ => RackStep.endJob _ _ _) _ _

theorem RackStep.abortBound (p : Part) (b : BayRef) (r : AbortReason) : RackStep p (p.abortBound b r) :=
  RackStep.abortJobs _ _ _

theorem RackStep.settle (p : Part) (n : IssueNo) (o : Outcome) : RackStep p (p.settle n o) := by
  simp only [Part.settle]
  refine RackStep.trans ?_ (RackStep.settleEnd _ _ _ _)
  refine RackStep.trans (RackStep.settleBegin p n o) ?_
  split
  · split
    · split
      · exact RackStep.trans (RackStep.endJob _ _ _) (EngineStep.serveLeft _).toRack
      · exact RackStep.refl _
    · exact RackStep.refl _
  · exact RackStep.refl _

theorem RackStep.failIssues (p : Part) (f : Issue → Bool) (r : IssueReason) : RackStep p (p.failIssues f r) :=
  RackStep.foldl (fun _ _ => RackStep.settle _ _ _) _ _

/-! ### Steps of running jobs (R160 to R166) -/

theorem RackStep.prepareChecked (p : Part) (c : ChannelNo) (j : Job) (i : Ident) (d : Dock) (a : Nat) :
    RackStep p (p.prepareChecked c j i d a) := by
  unfold Part.prepareChecked
  split
  · exact (EngineStep.prepareTx _ _ _ _).toRack
  · exact RackStep.trans (RackStep.trans (RackStep.modChannel _ _ _) (RackStep.endJob _ _ _)) (RackStep.raise _ _ _)

theorem RackStep.modActive (p : Part) (c : ChannelNo) (f : Job → Job) : RackStep p (p.modActive c f) :=
  RackStep.modChannel _ _ _

theorem RackStep.refreshPage (nv : Nv) (p : Part) (c : ChannelNo) (j : Job) (i : Ident) (s : UnitClass) :
    RackStep p (p.refreshPage nv c j i s) := by
  simp only [Part.refreshPage]
  split
  · exact RackStep.trans (RackStep.trans (RackStep.trans (EngineStep.noteCorrection _ _).toRack
      (RackStep.modActive _ _ _)) (EngineStep.fillStaging _ _ _).toRack) (RackStep.prepareChecked _ _ _ _ _ _)
  · exact RackStep.trans (RackStep.modActive _ _ _) (EngineStep.prepareTx _ _ _ _).toRack

theorem RackStep.nextStep (nv : Nv) (p : Part) (c : ChannelNo) (j : Job) (i : Ident) :
    RackStep p (p.nextStep nv c j i) := by
  have h (q : Part) (f : Job → Job) (d : Dock) (a : Nat) : RackStep q ((q.modActive c f).prepareChecked c j i d a) :=
    RackStep.trans (RackStep.modActive _ _ _) (RackStep.prepareChecked _ _ _ _ _ _)
  simp only [Part.nextStep]
  split
  · exact RackStep.endJob _ _ _
  · exact h _ _ _ _
  · split
    · exact h _ _ _ _
    · exact RackStep.refreshPage _ _ _ _ _ _
  · split
    · exact h _ _ _ _
    · exact RackStep.endJob _ _ _
  · split
    · exact h _ _ _ _
    · exact RackStep.endJob _ _ _
  · split
    · exact h _ _ _ _
    · exact RackStep.endJob _ _ _

theorem RackStep.goOn (nv : Nv) (p : Part) (c : ChannelNo) (j : Job) : RackStep p (p.goOn nv c j) := by
  unfold Part.goOn
  split
  · exact RackStep.trans (RackStep.modChannel _ _ _) (RackStep.nextStep _ _ _ _ _)
  · exact RackStep.refl _

theorem RackStep.serveEngine (nv : Nv) (p : Part) : RackStep p (p.serveEngine nv) := (EngineStep.serveEngine nv p).toRack

/-! ### Sessions, retirement, faults (spec 06, 07) -/

theorem RackStep.orderCharge (p : Part) (b : BayRef) (on : Bool) : RackStep p (p.orderCharge b on) :=
  (EngineStep.orderCharge p b on).toRack

theorem RackStep.haltSession (p : Part) (b : BayRef) : RackStep p (p.haltSession b) := by
  unfold Part.haltSession
  split
  · exact RackStep.trans (RackStep.modBay _ _ _) (RackStep.orderCharge _ _ _)
  · exact RackStep.trans (RackStep.modBay _ _ _) (RackStep.orderCharge _ _ _)
  · exact RackStep.refl _

theorem RackStep.endSession (p : Part) (b : BayRef) : RackStep p (p.endSession b) :=
  RackStep.trans (RackStep.modBay _ _ _) (RackStep.orderCharge _ _ _)

theorem RackStep.topSession (p : Part) (b : BayRef) : RackStep p (p.topSession b) :=
  RackStep.trans (RackStep.trans (RackStep.modBay _ _ _) (RackStep.orderCharge _ _ _)) (RackStep.raise _ _ _)

theorem RackStep.sessionStart (p : Part) (b : BayRef) : RackStep p (p.sessionStart b) := by
  simp only [Part.sessionStart]
  have h1 : RackStep p (match (p.sessionChoice b).1 with
      | .charging =>
        ((p.modBay b fun y => { y with identified := false, session := (p.sessionChoice b).1 }).modBay b fun y =>
          { y with sessionStart := some p.now, startLevel := none, bounces := 0
                   watch := some (p.now + 60000 * p.profile.chargeLimit)
                   weak := .pending p.profile.weakWindow }).orderCharge b true
      | _ => (p.modBay b fun y =>
          { y with identified := false, session := (p.sessionChoice b).1 }).orderCharge b false) := by
    split
    · exact RackStep.trans (RackStep.trans (RackStep.modBay _ _ _) (RackStep.modBay _ _ _)) (RackStep.orderCharge _ _ _)
    · exact RackStep.trans (RackStep.modBay _ _ _) (RackStep.orderCharge _ _ _)
  have h2 := RackStep.trans h1 (RackStep.readyEval _ b)
  split
  · exact RackStep.trans h2 (EngineStep.requestIdentify _ _).toRack
  · exact h2

theorem RackStep.listRetired (p : Part) (u : UnitId) : RackStep p (p.listRetired u) := by
  unfold Part.listRetired
  split
  · exact RackStep.refl _
  · split
    · exact ⟨rfl, rfl, rfl⟩
    · exact RackStep.raiseWith _ _ _ _

theorem RackStep.unlistRetired (p : Part) (u : UnitId) : RackStep p (p.unlistRetired u) := by
  unfold Part.unlistRetired
  split
  · exact ⟨rfl, rfl, rfl⟩
  · exact RackStep.refl _

theorem RackStep.retireWhere (p : Part) (u : UnitId) : RackStep p (p.retireWhere u) := by
  unfold Part.retireWhere
  split
  · exact RackStep.refl _
  · split
    · exact (AirStep.raiseNotice _ _ _ _ _).toRack
    · exact RackStep.trans (RackStep.haltSession _ _) (RackStep.readyEval _ _)
    · exact RackStep.refl _

theorem RackStep.raiseUnit (p : Part) (u : UnitId) (k : EventKind) (f : Attached → Attached) :
    RackStep p (p.raiseUnit u k f) := (ReportStep.raiseUnit p u k f).toRack

theorem RackStep.retire (p : Part) (u : UnitId) : RackStep p (p.retire u) := by
  simp only [Part.retire]
  split
  · exact RackStep.refl _
  · split
    · refine RackStep.trans ?_ (RackStep.raiseUnit _ _ _ _)
      split
      · exact RackStep.trans (RackStep.listRetired _ _) (RackStep.modBay _ _ _)
      · exact RackStep.listRetired _ _
    · refine RackStep.trans ?_ (RackStep.raiseUnit _ _ _ _)
      refine RackStep.trans ?_ (RackStep.retireWhere _ _)
      refine RackStep.trans ?_ (AirStep.withdrawSource _ _).toRack
      refine RackStep.trans ?_ (AirStep.unassign _ _).toRack
      refine RackStep.trans ?_ (AirStep.endNotice _ _).toRack
      refine RackStep.trans ?_ (RackStep.failIssues _ _ _)
      exact RackStep.trans (RackStep.modEntry _ _ _) (RackStep.listRetired _ _)

theorem RackStep.emptyNeeds (p : Part) (b : BayRef) : RackStep p (p.emptyNeeds b) := RackStep.modBay _ _ _

theorem RackStep.disableBay (p : Part) (b : BayRef) : RackStep p (p.disableBay b) := by
  simp only [Part.disableBay]
  refine RackStep.trans ?_ (RackStep.raise _ _ _)
  refine RackStep.trans ?_ (RackStep.readyEval _ _)
  refine RackStep.trans ?_ (RackStep.endSession _ _)
  refine RackStep.trans ?_ (RackStep.abortBound _ _ _)
  exact RackStep.trans (RackStep.modBay _ _ _) (RackStep.emptyNeeds _ _)

theorem RackStep.countFault (p : Part) (c : FaultClass) (u : UnitId) : RackStep p (p.countFault c u) := by
  simp only [Part.countFault]
  have h := RackStep.modEntry p u fun e =>
    { e with faults := e.faults.set (faultIdx c) (min (e.faults[faultIdx c] + 1) 15) }
  split
  · split
    · exact RackStep.trans h (RackStep.retire _ _)
    · exact h
  · exact h

theorem RackStep.strike (p : Part) (b : BayRef) : RackStep p (p.strike b) := by
  simp only [Part.strike]
  split
  · exact RackStep.trans (RackStep.modBay _ _ _) (RackStep.disableBay _ _)
  · exact RackStep.modBay _ _ _

theorem RackStep.faultOccur (c : FaultClass) (p : Part) (b : BayRef) : RackStep p (p.faultOccur c b) := by
  simp only [Part.faultOccur]
  split
  · exact RackStep.refl _
  · next o _ =>
    refine RackStep.trans ?_ (RackStep.raiseWith _ _ _ _)
    refine RackStep.trans ?_ (RackStep.readyEval _ _)
    have h0 := RackStep.trans (RackStep.modBay p b fun y => { y with fault := some (p.faultRecord c o y.fault) })
      (RackStep.haltSession _ b)
    have h1 (q : Part) : RackStep q (if o.listed = true then q.failIssues (fun x => x.unit == some o.unit) .fault else q) := by
      split
      · exact RackStep.failIssues _ _ _
      · exact RackStep.refl _
    have h2 (q : Part) : RackStep q ((q.emptyNeeds b).abortBound b .faultAbort) :=
      RackStep.trans (RackStep.emptyNeeds _ _) (RackStep.abortBound _ _ _)
    have h3 (q : Part) : RackStep q (if o.listed = true then q.countFault c o.unit else q) := by
      split
      · exact RackStep.countFault _ _ _
      · exact RackStep.refl _
    have h4 (q : Part) : RackStep q (if c = .contact then q.strike b else q) := by
      split
      · exact RackStep.strike _ _
      · exact RackStep.refl _
    exact RackStep.trans (RackStep.trans (RackStep.trans (RackStep.trans h0 (h1 _)) (h2 _)) (h3 _)) (h4 _)

theorem RackStep.endJobMute (p : Part) (j : Job) (r : JobResult) : RackStep p (p.endJobMute j r) :=
  RackStep.endJobWith (fun q b => RackStep.faultOccur .mute q b) p j r

/-! ### Dock transactions (R157, R158) -/

theorem RackStep.requestGone (p : Part) (c : ChannelNo) (s : Byte) : RackStep p (p.requestGone c s) := by
  have h (q : Part) (x : Channel) : RackStep q (q.setChannel c x) := (EngineStep.setChannel q c x).toRack
  simp only [Part.requestGone]
  split
  · exact RackStep.refl _
  · split
    · split
      · split
        · exact RackStep.trans (h _ _) (RackStep.trans (RackStep.modEntry _ _ _) (RackStep.readyEval _ _))
        · exact h _ _
      · exact h _ _
    · exact RackStep.refl _

theorem RackStep.limitPassed (p : Part) (c : ChannelNo) (t : Transaction) (j : Job) :
    RackStep p (p.limitPassed c t j) := by
  unfold Part.limitPassed
  split
  · exact RackStep.modChannel _ _ _
  · exact RackStep.endJobMute _ _ _

theorem RackStep.identDone (nv : Nv) (p : Part) (c : ChannelNo) (j : Job) (i : Ident) :
    RackStep p (p.identDone nv c j i) := by
  simp only [Part.identDone]
  split
  · exact RackStep.endJob _ _ _
  · split
    · exact RackStep.endJob _ _ _
    · split
      · exact RackStep.goOn _ _ _ _
      · split
        · exact RackStep.goOn _ _ _ _
        · exact RackStep.endJob _ _ _
      · exact RackStep.goOn _ _ _ _

theorem RackStep.pageDone (nv : Nv) (p : Part) (c : ChannelNo) (j : Job) : RackStep p (p.pageDone nv c j) := by
  simp only [Part.pageDone]
  split
  · split
    · exact RackStep.trans (RackStep.modChannel _ _ _) (EngineStep.park _ _).toRack
    · exact RackStep.trans (RackStep.trans (RackStep.modChannel _ _ _) (RackStep.modChannel _ _ _)) (RackStep.goOn _ _ _ _)
  · exact RackStep.goOn _ _ _ _

theorem RackStep.txDone (nv : Nv) (p : Part) (c : ChannelNo) (j : Job) (t : Transaction) (d : DockData) :
    RackStep p (p.txDone nv c j t d) := by
  unfold Part.txDone
  split
  · split
    · exact RackStep.identDone _ _ _ _ _
    · exact RackStep.refl _
  · exact RackStep.trans (RackStep.modEntry _ _ _) (RackStep.endJob _ _ _)
  · exact RackStep.goOn _ _ _ _
  · exact RackStep.goOn _ _ _ _
  · exact RackStep.pageDone _ _ _ _
  · exact RackStep.goOn _ _ _ _
  · split
    · exact RackStep.trans (EngineStep.fillStaging _ _ _).toRack (RackStep.goOn _ _ _ _)
    · exact RackStep.refl _
  · split
    · exact RackStep.trans (RackStep.modChannel _ _ _) (EngineStep.prepareTx _ _ _ _).toRack
    · exact RackStep.endJob _ _ _
  · exact RackStep.trans (RackStep.modEntry _ _ _) (RackStep.endJob _ _ _)
  · exact RackStep.refl _

theorem RackStep.dockAnswer (nv : Nv) (p : Part) (c : ChannelNo) (b : BayRef) (s : Byte) (a : DockAnswer) :
    RackStep p (p.dockAnswer nv c b s a) := by
  unfold Part.dockAnswer
  split
  · split
    · split
      · exact RackStep.txDone _ _ _ _ _ _
      · exact RackStep.endJob _ _ _
      · exact RackStep.endJob _ _ _
      · exact RackStep.endJob _ _ _
    · exact RackStep.refl _
  · exact RackStep.refl _

/-! ### Seats, removals and the module's events (R99, R108 to R113) -/

theorem RackStep.faultRemoval (p : Part) (b : BayRef) : RackStep p (p.faultRemoval b) := by
  have h1 (q : Part) : RackStep q (match (q.bay b).fault with
      | some f => if f.recovery = Recovery.onRemove then
          (q.modBay b fun y => { y with fault := none }).raise (.bay b) .faultCleared else q
      | none => q) := by
    split
    · split
      · exact RackStep.trans (RackStep.modBay _ _ _) (RackStep.raise _ _ _)
      · exact RackStep.refl _
    · exact RackStep.refl _
  have h2 (q : Part) : RackStep q (if (q.bay b).release = true then
      (match (q.bay b).occupant with
        | some o => if (o.listed && !(q.modBay b fun y => { y with release := false }).retireList.contains o.unit) = true
            then (q.modBay b fun y => { y with release := false }).modEntry o.unit fun e => { e with retired := false }
            else q.modBay b fun y => { y with release := false }
        | none => q.modBay b fun y => { y with release := false }) else q) := by
    split
    · split
      · split
        · exact RackStep.trans (RackStep.modBay _ _ _) (RackStep.modEntry _ _ _)
        · exact RackStep.modBay _ _ _
      · exact RackStep.modBay _ _ _
    · exact RackStep.refl _
  exact RackStep.trans (h1 p) (h2 _)

theorem RackStep.issueUnseat (p : Part) (b : BayRef) : RackStep p (p.issueUnseat b).1 := by
  simp only [Part.issueUnseat]
  split
  · split <;> exact RackStep.settle _ _ _
  · split
    · exact RackStep.foldl (fun _ _ => RackStep.trans (RackStep.modIssue _ _ _) (RackStep.raise _ _ _)) _ _
    · exact RackStep.refl _

theorem RackStep.unseat (p : Part) (b : BayRef) : RackStep p (p.unseat b) := by
  simp only [Part.unseat]
  split
  · exact RackStep.refl _
  · next o _ =>
    refine RackStep.trans ?_ (RackStep.raiseWith _ _ _ _)
    refine RackStep.trans ?_ (RackStep.readyEval _ _)
    refine RackStep.trans ?_ (RackStep.modBay _ _ _)
    refine RackStep.trans ?_ (RackStep.faultRemoval _ _)
    refine RackStep.trans ?_ (RackStep.endSession _ _)
    refine RackStep.trans ?_ (RackStep.modBay _ _ _)
    refine RackStep.trans ?_ (RackStep.abortBound _ _ _)
    refine RackStep.trans ?_ (RackStep.emptyNeeds _ _)
    split
    · exact RackStep.trans (RackStep.issueUnseat _ _) (AirStep.unseatUnit _ _ _ _).toRack
    · exact RackStep.issueUnseat _ _

theorem RackStep.seat (p : Part) (b : BayRef) (u : UnitId) (c : UnitClass) : RackStep p (p.seat b u c) := by
  simp only [Part.seat]
  split
  · exact RackStep.refl _
  · refine RackStep.trans ?_ (RackStep.raiseWith _ _ _ _)
    refine RackStep.trans ?_ (RackStep.readyEval _ _)
    refine RackStep.trans ?_ (RackStep.sessionStart _ _)
    have h := RackStep.trans (RackStep.trans (RackStep.trans (RackStep.trans (RackStep.unseat p b)
      (RackStep.foldl (f := Part.unseat) (fun q d => RackStep.unseat q d) ((p.unseat b).otherBays u b) _))
      (EngineStep.serveLeft _).toRack)
      (AirStep.seatUnit _ u c b).toRack) (RackStep.modBay _ b fun y =>
        { y with
          occupant :=
            some ⟨u, ((List.foldl Part.unseat (p.unseat b) ((p.unseat b).otherBays u b)).serveLeft.seatUnit u c b).2⟩
          telemetry := none, identified := false, needUntune := false, needRefresh := false })
    split
    · exact h
    · exact RackStep.trans h (RackStep.raise _ _ _)

theorem RackStep.bounce (p : Part) (b : BayRef) : RackStep p (p.bounce b) := by
  simp only [Part.bounce]
  split
  · split
    · exact RackStep.trans (RackStep.setBay _ _ _) (RackStep.faultOccur _ _ _)
    · exact RackStep.setBay _ _ _
  · exact RackStep.refl _

theorem RackStep.chargeRule (p : Part) (b : BayRef) (l : Nat) : RackStep p (p.chargeRule b l) := by
  unfold Part.chargeRule
  split
  · split
    · exact RackStep.topSession _ _
    · exact RackStep.refl _
  · split
    · exact RackStep.trans (RackStep.modBay _ _ _) (RackStep.orderCharge _ _ _)
    · exact RackStep.refl _
  · exact RackStep.refl _

theorem RackStep.telemetry (p : Part) (b : BayRef) (t : Telemetry) : RackStep p (p.telemetry b t) := by
  simp only [Part.telemetry]
  split
  · exact RackStep.refl _
  · next o _ =>
    split
    · exact RackStep.refl _
    · refine RackStep.trans ?_ (RackStep.readyEval _ _)
      have h0 := RackStep.modBay p b fun y => { y with telemetry := some t }
      have h1 (q : Part) : RackStep q (if o.listed = true then q.modEntry o.unit fun e => { e with level := t.level } else q) := by
        split
        · exact RackStep.modEntry _ _ _
        · exact RackStep.refl _
      have h01 := RackStep.trans h0 (h1 _)
      have h2 (q : Part) (x : Bool) : RackStep q (if x = true then q.modBay b fun y => { y with startLevel := some t.level } else q) := by
        split
        · exact RackStep.modBay _ _ _
        · exact RackStep.refl _
      have h3 (q : Part) (y : Bay) : RackStep q (if q.weakDue y = true then q.modBay b fun y => { y with weak := .done } else q) := by
        split
        · exact RackStep.modBay _ _ _
        · exact RackStep.refl _
      have h4 (q : Part) (l : List FaultClass) : RackStep q ((l.foldl (fun q c => q.faultOccur c b) q).chargeRule b t.level) :=
        RackStep.trans (RackStep.foldl (fun q c => RackStep.faultOccur c q b) _ _) (RackStep.chargeRule _ _ _)
      refine iteInduction (motive := RackStep p) (fun _ => ?_) (fun _ => h01)
      exact RackStep.trans (RackStep.trans (RackStep.trans h01 (h2 _ _)) (h3 _ _)) (h4 _ _)

theorem RackStep.terminated (p : Part) (b : BayRef) : RackStep p (p.terminated b) := by
  unfold Part.terminated
  split
  · exact RackStep.trans (RackStep.topSession _ _) (RackStep.readyEval _ _)
  · exact RackStep.refl _

theorem RackStep.startHold (p : Part) (r : RackNo) : RackStep p (p.startHold r) := RackStep.modRack _ _ _ rfl

theorem RackStep.button (p : Part) (r : RackNo) : RackStep p (p.button r) := by
  simp only [Part.button]
  refine RackStep.trans ?_ (RackStep.raiseWith _ _ _ _)
  split
  · split
    · exact RackStep.modRack _ _ _ rfl
    · exact RackStep.startHold _ _
  · exact RackStep.startHold _ _

theorem RackStep.pollEvent (nv : Nv) (p : Part) (r : RackNo) (e : PollEvent) : RackStep p (p.pollEvent nv r e) := by
  cases e with
  | button => exact RackStep.button _ _
  | seat n u cls =>
    simp only [Part.pollEvent]
    split
    · exact RackStep.seat _ _ _ _
    · exact RackStep.refl _
  | unseat n =>
    simp only [Part.pollEvent]
    split
    · exact RackStep.unseat _ _
    · exact RackStep.refl _
  | bounce n =>
    simp only [Part.pollEvent]
    split
    · exact RackStep.bounce _ _
    · exact RackStep.refl _
  | telemetry n mv ma temp level =>
    simp only [Part.pollEvent]
    split
    · exact RackStep.telemetry _ _ _
    · exact RackStep.refl _
  | terminated n =>
    simp only [Part.pollEvent]
    split
    · exact RackStep.terminated _ _
    · exact RackStep.refl _
  | dockAnswer c n serial a =>
    simp only [Part.pollEvent]
    split
    · exact RackStep.dockAnswer _ _ _ _ _ _
    · exact RackStep.refl _

theorem RackStep.settleEvent (nv : Nv) (p : Part) : RackStep p (p.settleEvent nv) := (EngineStep.settleEvent nv p).toRack

theorem RackStep.finish (nv : Nv) (p : Part) : RackStep p (p.finish nv) := (EngineStep.finish nv p).toRack

/-! ### The events of one POLL_ANSWER (R99, R196) -/

/-- One event leaves every rack's link state, the time and the profile as they were. -/
theorem RackStep.statePollEvent (s : State) (r : RackNo) (e : PollEvent) :
    RackStep s.part (s.pollEvent r e).part := by
  have h := RackStep.trans (RackStep.pollEvent s.nv s.part r e) (RackStep.settleEvent s.nv _)
  unfold State.pollEvent
  generalize (s.part.pollEvent s.nv r e).settleEvent s.nv = q at h
  exact RackStep.trans h (State.arbitrate_report { s with part := q }).toRack

theorem State.pollEvent_after (s : State) (r : RackNo) (e : PollEvent) : s.after (s.pollEvent r e) := by
  refine ⟨State.arbitrate_framer _, State.arbitrate_slot _, State.arbitrate_nv _, State.arbitrate_pending _,
    fun h => ?_⟩
  rw [State.pollEvent, State.arbitrate_busy]
  exact h

/-- All the events of an answer. -/
theorem State.pollEvents_step (r : RackNo) (es : List PollEvent) (s : State) :
    RackStep s.part (es.foldl (fun t e => t.pollEvent r e) s).part ∧
    s.after (es.foldl (fun t e => t.pollEvent r e) s) := by
  induction es generalizing s with
  | nil => exact ⟨RackStep.refl _, rfl, rfl, rfl, rfl, fun _ => rfl⟩
  | cons e l ih =>
    obtain ⟨a, b⟩ := ih (s.pollEvent r e)
    exact ⟨RackStep.trans (RackStep.statePollEvent s r e) a, State.after_trans (State.pollEvent_after s r e) b⟩

theorem State.takeEvents_step (s : State) (r : RackNo) (m : PollMessage) (es : List PollEvent) :
    RackStep s.part (s.takeEvents r m es).part ∧ s.after (s.takeEvents r m es) := by
  unfold State.takeEvents
  split
  · exact State.pollEvents_step r es s
  · exact ⟨RackStep.refl _, rfl, rfl, rfl, rfl, fun _ => rfl⟩

end Sys2Proof.Machine
end

