-- ==== Sys2Proof/Tests/Slice0.lean ====
section
/-! SUPPORT. The model's own tests: ill-formed commands the well-formedness check refuses, small steps on small
states, and for every statement with hypotheses a state and operands that meet them, clause by clause. -/

namespace Sys2Proof.Machine

/-- A change of the part behind the link. -/
def State.tweaked (s : State) (f : Part → Part) : State := { s with part := f s.part }

end Sys2Proof.Machine

namespace Sys2Proof.Tests

set_option Elab.async false

open Sys2Proof Sys2Proof.Machine

/-! ### Helpers -/

/-- The state a command leaves. -/
def after (s : State) (i : Instr) : State :=
  match exec i s with
  | .next t => t
  | _ => s

/-- A part whose load of a blank store has ended. -/
def base : State :=
  { State.reset with part := { State.reset.part with
      racks := Vector.replicate 8 (Rack.initial .offline (some 100))
      store := { State.reset.part.store with loading := false } } }

/-- The outstanding reply or the frame on the line, as its result word. -/
def said (s : State) : Option ResultWord :=
  match s.link.line with
  | some (.reply r) => some r.result
  | _ => none

def mic : UnitId := 0x11#32
def ear : UnitId := 0x22#32

def heard (u : UnitId) (c : UnitClass) (slot tour lang : Nat) : StatusRecord := ⟨slot, u, c, 40, 70, tour, lang, none⟩

/-- A FORMING tour 1 with floor language 1. -/
def opened : State := base.tweaked (·.setTour 0 ⟨.forming, ['A'], some 0, 10, 0, []⟩)

/-- An entry heard in zone 0. -/
def heardEntry (u : UnitId) (c : UnitClass) (t : Option Tune) : Entry :=
  { base.part.newEntry u c with state := .onAir, zone := some 0, silence := some 30000, assignment := t }

/-- The same with zone 0 UP and a microphone and a listener, assigned to the tour, heard there. -/
def onAir : State :=
  opened.tweaked fun p =>
    { (p.setTour 0 ⟨.forming, ['A'], some 0, 10, 1, []⟩).setZone 0
        { Zone.initial .up with downTimer := some 250, cycleCount := 1 } with
      units := [(0, heardEntry mic .voice none), (1, heardEntry ear .listener (some ⟨0, 0⟩))] }

/-- The same, the tour LIVE with its floor source and its carriage, lingering or not. -/
def live (linger : Option Nat) : State :=
  onAir.tweaked fun p =>
    (p.setTour 0 ⟨.live, ['A'], some 0, 10, 1, [(0, mic)]⟩).setZone 0
      { p.zone 0 with carriages := [⟨.tour ⟨0, 0⟩, some 1, if linger.isSome then 0 else 1, linger, some 0, none⟩] }

def bay1 : BayRef := ⟨0, 0⟩
def bay2 : BayRef := ⟨0, 1⟩

/-- Rack 0 at its poll turn, with a message, the rack changed by `f`. -/
def polledWith (m : PollMessage) (x : Millis) (f : Rack → Rack) : State :=
  base.tweaked fun p => { p.modRack 0 f with bus := ⟨some (.poll 0 m, x), 3⟩ }

def polled : State := polledWith .attach 100 id

/-- Rack 0 ATTACHING, sent RACK_SETUP. -/
def settingUp : State :=
  polledWith (.rackSetup ⟨4300, 1, 2, 4⟩) 200 fun k =>
    { k with state := .attaching, step := some .setup, offered := some 8 }

/-- Rack 0 ATTACHING, sent SURVEY. -/
def surveying : State :=
  polledWith .survey 300 fun k => { k with state := .attaching, step := some .survey, offered := some 8 }

/-- Rack 0 ONLINE with eight bays, a listener in the first: its IDENTIFY has the dock turn. -/
def attached : State :=
  base.tweaked fun p =>
    { ((p.modRack 0 fun k => { k with state := .online, bayCount := some 8 }).modBay bay1 fun y =>
        { y with
          occupant := some ⟨ear, true⟩, session := .charging, watch := some 14400000, job := some 1 }).modChannel 0
        fun h =>
          { h with
            state := .running, active := some ⟨1, .identify, bay1, ear, some .ident, 0, 1, 0, some 300, none⟩
            tx := some ⟨.identRead, none, 0, 1, .inTurn⟩ } with
      units := [(0, { p.newEntry ear .listener with bay := some bay1 })]
      bus := ⟨some (.dock 0 bay1 0 none .identRead, 300), 3⟩ }

/-- The same at the rack's poll turn. -/
def polling : State := attached.tweaked fun p => { p with bus := ⟨some (.poll 0 (.poll [] [] none), 400), 0⟩ }

/-! ### Well-formedness: each check refuses an ill-formed command -/

theorem test_wf_tag_zero : (Instr.tourRead 0 (.val 1)).wf = false := by decide
theorem test_wf_tag_one : (Instr.tourRead 1 (.val 1)).wf = true := by decide
theorem test_wf_discarded_empty : (Instr.hostFrameDiscarded []).wf = false := by decide
theorem test_wf_audio_track : (Instr.audio 5 [0]).wf = false := by decide
theorem test_wf_audio_track_zero : (Instr.audio 0 [0]).wf = false := by decide
theorem test_wf_audio_empty : (Instr.audio 1 []).wf = false := by decide
theorem test_wf_audio_long : (Instr.audio 1 (List.replicate 1025 0)).wf = false := by decide +kernel
theorem test_wf_command_long : (Instr.command 1 (List.replicate 1025 0)).wf = false := by decide +kernel
theorem test_wf_mark_statuses : (Instr.cycleMark 0 ⟨0, List.replicate 3 (heard ear .listener 22 0 0), []⟩).wf = false := by
  decide
theorem test_wf_mark_packets : (Instr.cycleMark 0 ⟨0, [], List.replicate 8 ⟨15, []⟩⟩).wf = false := by decide
theorem test_wf_mark_quality : (Instr.cycleMark 0 ⟨0, [⟨22, ear, .listener, 64, 0, 0, 0, none⟩], []⟩).wf = false := by
  decide
theorem test_wf_mark_level : (Instr.cycleMark 0 ⟨0, [⟨22, ear, .listener, 0, 101, 0, 0, none⟩], []⟩).wf = false := by
  decide
theorem test_wf_survey_long : (Instr.surveyAnswer 0 (List.replicate 25 none)).wf = false := by decide
theorem test_wf_poll_long : (Instr.pollAnswer 0 (List.replicate 33 .button)).wf = false := by decide
theorem test_wf_poll_ident : (Instr.pollAnswer 0 [.dockAnswer 0 1 0 (.done (.ident []))]).wf = false := by decide
theorem test_wf_poll_page : (Instr.pollAnswer 0 [.dockAnswer 0 1 0 (.done (.page []))]).wf = false := by decide

/-! ### Small steps -/

theorem test_idle_step : step State.reset = .next State.reset.tick := rfl
theorem test_front_command : step { State.reset with pending := [.startUpLoadDone] } =
    exec .startUpLoadDone State.reset := rfl
theorem test_no_word : decodeTableWord 16 0 = none := rfl
theorem test_command_reads : said (after base (.command 1 (textBytes (txt "STATUS")))) = some .ok := by decide +kernel
theorem test_command_malformed : said (after base (.command 1 (textBytes (txt "NONSENSE")))) = some .badArg := by
  decide +kernel
theorem test_open_twice : said (after opened (.tourOpen 1 (.val 1) (.val []) (.val 1) (.val 1))) = some .state := by
  decide +kernel
theorem test_get_all_fits : (Reply.text ⟨true, 1, txt "GET", .ok,
    allParams.map fun q => (paramText q, setValueText (Profile.default.value q))⟩).length ≤ 1024 := by decide +kernel
theorem test_long_verb : Reply.text ⟨false, 1, List.replicate 1024 'A', .busy, []⟩ = txt "? BUSY" := by decide +kernel
theorem test_voice_add : said (after onAir (.tourVoiceAdd 1 (.val 1) (.val 1) (.val mic))) = some .ok := by decide +kernel
theorem test_zone_up : ((after base (.zoneHello 0)).part.zone 0).state = .up := by decide +kernel
theorem test_start_without_floor : said (after opened (.tourStart 1 (.val 1))) = some .state := by decide +kernel
theorem test_poll_timer_again : ((base.part.pollElapse 0).rack 0).pollTimer = some 200 := by decide +kernel
theorem test_set_out_of_range : said (after base (.set 1 [(.num .linger, .num 24)])) = some .badArg := by decide +kernel

/-- A seat over the running job of channel 0: the new IDENTIFY takes the channel that job left. -/
theorem test_seat_takes_the_channel_left :
    ((polling.part.seat bay1 0x33#32 .listener).channel 0).active.map (·.unit) = some 0x33#32 := by decide +kernel

/-! ### Witnesses: the hypotheses of the statements are met -/

theorem witness_idle : base.pending = [] := by decide +kernel
theorem witness_inv : base.inv = true ∧ step base = .next base.tick := by
  refine ⟨by decide +kernel, ?_⟩
  have h : base.pending = [] := by decide +kernel
  simp [step, h]

theorem witness_records : attached.recordsSound ∧ step attached = .next attached.tick := by
  refine ⟨⟨?_, ?_, ?_, ?_, ?_, ?_, ?_, ?_, ?_, ?_⟩, ?_⟩
  · unfold Part.tableSound; decide +kernel
  · unfold Part.docksSound; decide +kernel
  · unfold Part.toursSound; decide +kernel
  · unfold Part.countsSound; decide +kernel
  · unfold Part.claimantsSound; decide +kernel
  · unfold Part.readySound; decide +kernel
  · unfold Part.jobsSound; decide +kernel
  · unfold Part.bindingsSound; decide +kernel
  · unfold Part.issuesSound; decide +kernel
  · decide +kernel
  · have h : attached.pending = [] := by decide +kernel
    simp [step, h]
theorem witness_store_untouched : Instr.lineBreak.writesStore = false := by decide
theorem witness_during_load : State.reset.deaf = true ∧ (Instr.tourRead 1 .absent).duringLoad = false := by decide +kernel
theorem witness_no_reset (x : Straps) : Instr.lineBreak ≠ .powerOn x ∧ Instr.lineBreak ≠ .resetLine x ∧
    Instr.lineBreak ≠ .replySent := ⟨nofun, nofun, nofun⟩
theorem witness_load : State.reset.deaf = true ∧ State.reset.nv.upsets = [] ∧ State.reset.link.line = none ∧
    State.reset.link.ready = [] ∧ State.reset.part.reports = [] ∧
    Profile.default.disabledKinds.contains .start = false := by decide +kernel

/-- A part whose store engine performs an operation. -/
def storing (op : StoreOp) : State :=
  { base with
    link := { base.link with slot := some ⟨1, txt "X", false⟩ }
    part := { base.part with store := { base.part.store with op := some op } } }

theorem witness_reset_cuts_short (op : StoreOp) : (storing op).part.store.op = some op := rfl

theorem witness_line_events : base.deaf = false ∧ base.link.framer = .hunting := by decide +kernel
theorem witness_short_length : (0 : Byte) ≠ 0xD5#8 ∧ (1 : Byte) ≠ 0xD5#8 ∧ 256 * (0 : Byte).toNat + (1 : Byte).toNat < 2 := by
  decide
theorem witness_long_length : (4 : Byte) ≠ 0xD5#8 ∧ (3 : Byte) ≠ 0xD5#8 ∧ 1026 < 256 * (4 : Byte).toNat + (3 : Byte).toNat := by
  decide
theorem witness_command : parseCommand 1 (textBytes (txt "STATUS")) = some (.status 1) ∧ base.takes 1 ∧
    parseCommand 1 (textBytes (txt "NONSENSE")) = none := by decide +kernel

/-- A part with a command outstanding, its reply on the line. -/
def asked : State := after base (.status 1)

theorem witness_busy : asked.deaf = false ∧ asked.link.slot.isSome = true ∧ asked.link.busyWaiting < 4 ∧
    (Instr.houseRead 2).hostTag = some 2 := by decide +kernel

/-- The same with four BUSY replies waiting. -/
def besieged : State :=
  { asked with link := { asked.link with ready := List.replicate 4 ⟨false, 2, txt "STATUS", .busy, []⟩ } }

theorem witness_busy_full : besieged.deaf = false ∧ besieged.link.slot.isSome = true ∧ 4 ≤ besieged.link.busyWaiting := by
  decide +kernel

/-- A reply on the line of a part. -/
def sending (o x : Bool) : State :=
  { base with link := ⟨.hunting, some ⟨1, txt "X", x⟩, [], some (.reply ⟨o, 1, txt "X", .ok, []⟩)⟩ }

theorem witness_reply_sent (x : Bool) : (sending true x).deaf = false ∧
    (sending true x).link.line = some (.reply ⟨true, 1, txt "X", .ok, []⟩) ∧
    (sending true x).link.slot = some ⟨1, txt "X", x⟩ := by cases x <;> decide +kernel
theorem witness_straps_at_restart :
    ∃ x, x = Config.strapsAtRestart (sending true true).part.freeCount ∧ (sending true true).deaf = false :=
  ⟨_, rfl, by decide +kernel⟩
theorem witness_busy_reply_sent : (sending false false).deaf = false := by decide +kernel

/-- A report on the line, of an issue record in a final state or of the system. -/
def reporting (final : Bool) : State :=
  let x : Issue := { Issue.free with state := .taken }
  { base with
    link := ⟨.hunting, none, [],
      some (.report (if final then ⟨.issue 0, [.taken], [], some x⟩ else ⟨.system, [.start], [], none⟩))⟩
    part := if final then base.part.setIssue 0 x else base.part }

theorem witness_report_sent : (reporting true).deaf = false ∧ (reporting false).deaf = false ∧
    (reporting true).part.issue 0 = { Issue.free with state := .taken } ∧ (1 : IssueNo) ≠ 0 := by decide +kernel

/-- A running house program of one track whose buffer holds `n` frames. -/
def playing (n : Nat) : State :=
  { base with part := { base.part with
      house := ⟨true, [0], [⟨0, List.replicate n [1], none, 0, 0, 0, 0⟩], true, some 40⟩ } }

theorem witness_audio_idle : base.deaf = false ∧ base.part.house.running = false ∧ 1 ≤ (4 : Byte).toNat := by decide +kernel
theorem witness_audio_other_track : (playing 0).deaf = false ∧ (playing 0).part.house.tracks.length < (2 : Byte).toNat := by
  decide +kernel
theorem witness_audio_room : (playing 7).deaf = false ∧ (playing 7).part.house.running = true ∧
    ((playing 7).part.house.tracks[(1 : Byte).toNat - 1]?.map (·.buffer.length)) = some 7 := by decide +kernel
theorem witness_audio_full :
    ((playing 8).part.house.tracks[(1 : Byte).toNat - 1]?.map (·.buffer.length)) = some 8 := by decide +kernel

theorem witness_takes : base.takes 1 ∧ base.takes 255 := by decide +kernel
theorem witness_reads_units : onAir.takes 1 ∧ validUnit mic = true ∧ (onAir.part.find mic).isSome = true ∧
    (Param.autoRefresh ∈ allParams) := by decide +kernel
theorem witness_reads_racks : attached.takes 1 ∧ attached.part.present ⟨0, 7⟩ = true ∧
    (attached.part.jobNumbered 1).isSome = true := by decide +kernel

theorem witness_tour_open : base.takes 1 ∧ ([] : Text).length ≤ 16 ∧ base.part.langEnabled 15 = true ∧
    (base.part.tour 31).state = .free := by decide +kernel

/-- A tour 1 in a state, with its floor source and a count. -/
def touring (x : TourState) (n : Nat) : State :=
  { onAir with part := onAir.part.setTour 0 ⟨x, ['A'], some 0, 10, n, [(0, mic)]⟩ }

theorem witness_tour_start : (touring .forming 1).takes 1 ∧ ((touring .forming 1).part.tour 0).state = .forming ∧
    ((touring .forming 1).part.tour 0).hasFloor = true := by decide +kernel
theorem witness_tour_start_paused : (touring .paused 1).takes 1 ∧ ((touring .paused 1).part.tour 0).state = .paused ∧
    ((touring .paused 1).part.tour 0).hasFloor = true := by decide +kernel
theorem witness_tour_pause : (live none).takes 1 ∧ ((live none).part.tour 0).state = .live := by decide +kernel
theorem witness_tour_close : (live none).takes 1 ∧ (live none).part.tableSound ∧
    ((live none).part.tour 0).state.open = true ∧ (live none).part.reservedOn 0 = 0 ∧
    (touring .closing 1).takes 1 ∧ (touring .closing 1).part.tableSound ∧
    ((touring .closing 1).part.tour 0).state = .closing ∧ ((touring .closing 1).part.tour 1).state = .free := by
  unfold Part.tableSound; decide +kernel
theorem witness_tour_capacity : onAir.takes 1 ∧ (onAir.part.tour 0).state ≠ .free ∧ (onAir.part.tour 0).count ≤ 1 ∧
    (base.part.tour 0).state = .free ∧ 9 < ((touring .live 10).part.tour 0).count := by decide +kernel
theorem witness_voice_add : onAir.takes 1 ∧ onAir.part.langEnabled 0 = true ∧ (onAir.part.tour 0).state.open = true ∧
    (onAir.part.entry mic).map (fun e => (e.cls, e.retired, e.state)) = some (.voice, false, .onAir) ∧
    onAir.part.sourceOf mic = none ∧ (onAir.part.tour 0).source 0 = none ∧
    (onAir.part.tour 0).sources.length < 4 := by decide +kernel
theorem witness_voice_drop : (touring .paused 1).takes 1 ∧ ((touring .paused 1).part.tour 0).source 0 = some mic ∧
    ¬(((touring .paused 1).part.tour 0).floor = some 0 ∧ ((touring .paused 1).part.tour 0).state = .live) := by
  decide +kernel

theorem witness_forget : onAir.takes 1 ∧ validUnit ear = true ∧
    (onAir.part.find ear).map (fun x => x.2.state) = some .onAir := by decide +kernel
theorem witness_unassign : onAir.takes 1 ∧ ((onAir.part.entry ear).bind (·.assignment)).isSome = true := by decide +kernel
theorem witness_retune : onAir.takes 1 ∧
    (onAir.part.entry ear).map (fun e => (e.cls, e.retired, onAir.part.noticeRoom e,
      decide (onAir.part.countWithout 0 e < (onAir.part.tour 0).capacity))) = some (.listener, false, true, true) ∧
    (onAir.part.tour 0).state.open = true := by decide +kernel

/-- A part whose unit table holds one entry, changed by `f`. -/
def listing (f : Entry → Entry) : State :=
  { base with part := base.part.addEntry 3 (f (base.part.newEntry ear .listener)) }

theorem witness_locate : base.takes 1 ∧ validUnit 0#32 = false ∧ validUnit ear = true ∧ base.part.entry ear = none ∧
    ((listing id).part.entry ear).map (·.state) = some .docked ∧
    ((listing fun e => { e with state := .out }).part.entry ear).map
      (fun e => (e.state, (listing fun e => { e with state := .out }).part.noticeRoom e)) = some (.out, false) ∧
    (onAir.part.entry ear).map (fun e => (e.state, onAir.part.noticeRoom e)) = some (.onAir, true) := by decide +kernel

/-- A part whose retire list holds `l`. -/
def retiring (l : List UnitId) : State := { base with part := { base.part with retireList := l } }

theorem witness_retire : onAir.takes 1 ∧ (onAir.part.find ear).isSome = true ∧ (base.part.find ear) = none ∧
    base.part.retireList.contains ear = false ∧ (retiring [ear]).part.retireList.contains ear = true := by decide +kernel
theorem witness_retire_full : (retiring (List.replicate 1024 mic)).part.retireList.contains ear = false ∧
    1024 ≤ (retiring (List.replicate 1024 mic)).part.retireList.length := by decide +kernel
theorem witness_purge : (retiring [ear]).takes 1 ∧ (retiring [ear]).part.retireList.contains ear = true ∧
    ((listing fun e => { e with retired := true, state := .out }).part.entry ear).map (·.retired) = some true ∧
    ((listing fun e => { e with retired := true, bay := some bay1 }).part.entry ear).map
      (fun e => (e.retired, e.state, e.bay)) = some (true, .docked, some bay1) := by decide +kernel
theorem witness_silence : onAir.deaf = false ∧ ((onAir.part.entry ear).bind (·.silence)).isSome = true := by decide +kernel

/-- The listener with a notice, the tour's count 2. -/
def noticed (n : Notice) : State :=
  onAir.tweaked fun p =>
    { p.setTour 0 ⟨.forming, ['A'], some 0, 10, 2, []⟩ with
      units := [(1, { heardEntry ear .listener (some ⟨0, 0⟩) with notice := some n })] }

theorem witness_notice_life : (noticed ⟨.retune, some ⟨0, 0⟩, true, 0, 10000, 0⟩).deaf = false ∧
    (((noticed ⟨.retune, some ⟨0, 0⟩, true, 0, 10000, 0⟩).part.entry ear).bind (·.notice)).map
      (fun n => (n.reserving, n.target)) = some (true, some ⟨0, 0⟩) ∧
    1 < ((noticed ⟨.retune, some ⟨0, 0⟩, true, 0, 10000, 0⟩).part.tour 0).count := by decide +kernel
theorem witness_notice_life_last :
    ((noticed ⟨.retune, some ⟨0, 0⟩, true, 0, 10000, 0⟩).tweaked
      (·.setTour 0 ⟨.closing, ['A'], some 0, 10, 1, []⟩)).part.tour 0 = ⟨.closing, ['A'], some 0, 10, 1, []⟩ ∧
    (((noticed ⟨.retune, some ⟨0, 0⟩, true, 0, 10000, 0⟩).part.entry ear).bind (·.notice)).isSome = true := by
  decide +kernel
theorem witness_tour_close_reserved :
    (noticed ⟨.retune, some ⟨0, 0⟩, true, 0, 10000, 0⟩).part.tableSound ∧
    (noticed ⟨.retune, some ⟨0, 0⟩, true, 0, 10000, 0⟩).part.reservedOn 0 = 1 ∧
    ((noticed ⟨.retune, some ⟨0, 0⟩, true, 0, 10000, 0⟩).part.tour 0).count = 2 ∧
    (opened.part.tour 0).count - opened.part.reservedOn 0 = 0 ∧ opened.part.tableSound := by
  unfold Part.tableSound; decide +kernel
theorem witness_notice_life_plain :
    (((noticed ⟨.locate, none, false, 0, 10000, 0⟩).part.entry ear).bind (·.notice)).map (·.reserving) =
      some false := by decide +kernel

theorem witness_hello : onAir.deaf = false ∧ (onAir.part.zone 0).state = .up ∧ (onAir.part.zone 7).state = .down ∧
    ((base.tweaked (·.setZone 3 (Zone.initial .disabled))).part.zone 3).state = .disabled := by decide +kernel
theorem witness_mark : onAir.deaf = false ∧ (onAir.part.zone 1).state ≠ .up ∧ (onAir.part.zone 0).state = .up ∧
    (onAir.part.zone 0).cycleCount < 4294967295 := by decide +kernel

/-- Zone 0 with a plan in force that maps the microphone's uplink slot, its tour LIVE and sounding. -/
def sounding : State :=
  (live none).tweaked fun p => p.setZone 0 { p.zone 0 with
    soundingSet := [⟨0, 0⟩]
    plan := some ⟨[], ⟨0, 1, 0, [], [(15, mic)], [], [], []⟩, []⟩ }

theorem witness_voice_packet : ((sounding.part.zone 0).plan.map (·.beacon.uplinkMap)) = some [(15, mic)] ∧
    sounding.part.sourceOf mic = some ⟨0, 0⟩ ∧ (sounding.part.zone 0).soundingSet.contains ⟨0, 0⟩ = true ∧
    (onAir.part.zone 0).plan = none := by decide +kernel
theorem witness_linger_count : (((live (some 125)).part.zone 0).carriages.map (·.stream)).Nodup ∧
    ¬(CarrStream.tour ⟨0, 0⟩) ∈ ((live (some 125)).part.zone 0).waitQueue ∧
    (((live (some 1)).part.zone 0).carriage (.tour ⟨0, 0⟩)).map (·.linger) = some (some 1) ∧
    (((live none).part.zone 0).carriage (.tour ⟨0, 0⟩)).map (·.linger) = some none := by decide +kernel
theorem witness_status : onAir.part.unlistedIn ear = false ∧ base.part.entry ear = none ∧
    base.part.freePlace = some 0 ∧ (onAir.part.entry ear).map (fun e => (e.state, e.cls, e.zone, e.notice)) =
      some (.onAir, .listener, some 0, none) ∧ 1 ≤ (heardEntry ear .listener none).quality + onAir.part.profile.zoneMargin ∧
    ((noticed ⟨.untune, none, false, 3, 10000, 0⟩).part.entry ear).bind (fun e => e.notice.map (·.seq)) = some 3 := by
  decide +kernel
/-- Every place of the unit table taken, the first by an entry in the state given, no unit the listener. -/
def crowded (st : EntryState) : State :=
  base.tweaked fun p =>
    { p with units := (List.range 1024).map fun i =>
        (i, { heardEntry (0x100#32 + BitVec.ofNat 32 i) .listener none with state := if i = 0 then st else .onAir }) }

theorem witness_status_evicts : validUnit ear = true ∧ (crowded .silent).part.unlistedIn ear = false ∧
    (crowded .silent).part.entry ear = none ∧ (crowded .silent).part.freePlace = none ∧
    (crowded .silent).part.oldestSilent.map (fun x => (x.1, x.2.unit)) = some (0, 0x100#32) := by decide +kernel
theorem witness_status_dropped : (crowded .onAir).part.entry ear = none ∧ (crowded .onAir).part.freePlace = none ∧
    (crowded .onAir).part.oldestSilent = none := by decide +kernel
theorem witness_plan_audio : (live none).deaf = false ∧ ((live none).part.zone 0).state = .up ∧
    (((live none).part.zone 0).holders.map (·.1)) = [1] ∧
    (((live none).part.zone 0).carriage (.tour ⟨0, 0⟩)).map (·.slot.isSome) = some true := by decide +kernel
theorem witness_down_timer : (onAir.part.zone 0).state = .up ∧ (onAir.part.zone 0).downTimer.isSome = true := by
  decide +kernel
theorem witness_linger : ((live (some 125)).part.zone 0).state = .up ∧
    (((live (some 125)).part.zone 0).carriage (.tour ⟨0, 0⟩)).map (·.linger) = some (some 125) := by
  decide +kernel

theorem witness_house_start : base.takes 1 ∧ zoneSetField (.val .all) = some allZones ∧
    languagesField (.val [16, 1]) = some [15, 0] ∧ base.part.langEnabled 15 = true ∧ base.part.house.running = false := by
  decide +kernel
theorem witness_house_zones : (playing 0).takes 1 ∧ (playing 0).part.house.running = true ∧
    zoneSetField (.val (.list [7, 0])) = some [0, 7] := by decide +kernel
theorem witness_house_period : (playing 0).deaf = false ∧ (playing 0).part.house.period = some 40 := by decide +kernel

theorem witness_bay_states : (base.part.rack 0).state ≠ .online ∧ (attached.part.rack 0).state = .online ∧
    (attached.part.bay bay1).enable = true ∧ (attached.part.bay bay1).occupant.isSome = true ∧
    (attached.part.bay bay2).occupant = none ∧
    ((attached.tweaked (·.modBay bay2 fun y => { y with enable := false })).part.bay bay2).enable = false := by decide +kernel
theorem witness_bay_disable : attached.takes 1 ∧ attached.part.present ⟨0, 8⟩ = false ∧
    attached.part.present bay1 = true ∧ ((attached.part.bay bay1).job.isSome || attached.part.issueNamesBay bay1) = true ∧
    ((attached.part.bay bay2).job.isSome || attached.part.issueNamesBay bay2) = false ∧
    (attached.part.bay bay2).enable = true := by decide +kernel

/-- The first bay of the attached rack, changed by `f`. -/
def bayed (f : Bay → Bay) : State := { attached with part := attached.part.modBay bay1 f }

theorem witness_bay_enable : (bayed fun y => { y with enable := false, job := none }).takes 1 ∧
    ((bayed fun y => { y with enable := false }).part.bay bay1).enable = false ∧
    ((bayed fun y => { y with enable := false }).part.bay bay1).occupant.isSome = true ∧
    ((bayed fun y => { y with enable := false }).part.rack 0).state = .online := by decide +kernel
theorem witness_fault_clear : (bayed fun y => { y with fault := some ⟨[.hot], .onRemove, ear, true, 0, 1⟩ }).takes 1 ∧
    ((bayed fun y => { y with fault := some ⟨[.hot], .onRemove, ear, true, 0, 1⟩ }).part.bay bay1).fault.isSome = true ∧
    (attached.part.rack 0).state = .online ∧ (attached.part.bay bay1).enable = true := by decide +kernel

theorem witness_poll_timer : base.deaf = false ∧ (base.part.rack 7).pollTimer = some 100 := by decide +kernel

/-- Rack 0 changed by `f`, at its poll turn. -/
def racked (f : Rack → Rack) : State := { polled with part := polled.part.modRack 0 f }

theorem witness_unanswered : polled.deaf = false ∧ polled.part.bus.turn = some (.poll 0 .attach, 100) ∧
    (polled.part.rack 0).state = .offline ∧
    ((racked fun k => { k with state := .online, missed := 3 }).part.rack 0).missed + 1 < 5 ∧
    5 ≤ ((racked fun k => { k with state := .online, missed := 4 }).part.rack 0).missed + 1 ∧
    ((racked fun k => { k with state := .attaching, missed := 4 }).part.rack 0).state = .attaching := by decide +kernel
theorem witness_dock_turn : attached.deaf = false ∧ attached.part.jobsSound ∧
    attached.part.bus.turn = some (.dock 0 bay1 0 none .identRead, 300) ∧
    (attached.part.channel 0).active.isSome = true ∧
    (attached.part.channel 0).tx = some ⟨.identRead, none, 0, 1, .inTurn⟩ := by
  unfold Part.jobsSound; decide +kernel
theorem witness_rack_hello : polled.deaf = false ∧ polled.part.bus.turn = some (.poll 0 .attach, 100) ∧
    (polled.part.rack 0).state ≠ .disabled ∧ (racked fun k => { k with state := .disabled }).deaf = false := by decide +kernel
theorem witness_setup : settingUp.deaf = false ∧ (settingUp.part.rack 0).state = .attaching ∧
    settingUp.part.bus.turn = some (.poll 0 (.rackSetup ⟨4300, 1, 2, 4⟩), 200) ∧
    (settingUp.part.rack 0).step = some .setup := by decide +kernel
theorem witness_survey : surveying.deaf = false ∧ (surveying.part.rack 0).state = .attaching ∧
    surveying.part.bus.turn = some (.poll 0 .survey, 300) ∧ (surveying.part.rack 0).step = some .survey ∧
    (surveying.part.rack 0).offered = some (List.replicate 8 (none : Option (UnitId × UnitClass))).length := by decide +kernel
theorem witness_survey_seen (i k : Nat) (y z : UnitId × UnitClass)
    (h : [some (ear, UnitClass.listener)][i]? = some (some y)) (g : [some (ear, UnitClass.listener)][k]? = some (some z)) :
    i = k := by
  have e (n : Nat) (x : UnitId × UnitClass) (h : [some (ear, UnitClass.listener)][n]? = some (some x)) : n = 0 := by
    cases n with
    | zero => rfl
    | succ m => simp at h
  rw [e i y h, e k z g]
theorem witness_poll_answer : polling.deaf = false ∧ (polling.part.rack 0).state = .online ∧
    (match polling.part.bus.turn with | some (.poll 0 (.poll _ _ _), _) => true | _ => false) = true ∧
    polling.part.present bay1 = true ∧ validUnit mic = true ∧
    ((polling.part.bay bay1).occupant.map (·.unit)) ≠ some mic ∧
    (polling.part.bay bay1).occupant.isSome = true := by decide +kernel
theorem witness_show : ((racked fun k => { k with showState := .ramp 4 9 }).part.rack 0).showState = .ramp 4 9 ∧
    ((racked fun k => { k with showState := .hold 9 }).part.rack 0).showState = .hold 9 := by decide +kernel
theorem witness_watch : attached.deaf = false ∧ (attached.part.bay bay1).watch.isSome = true ∧
    (attached.part.bay bay1).session = .charging ∧ (attached.part.bay bay1).occupant.isSome = true ∧
    ((bayed fun y => { y with session := .topped }).part.bay bay1).watch.isSome = true ∧
    ((bayed fun y => { y with session := .topped }).part.bay bay1).session ≠ .charging := by decide +kernel

/-- A job waiting in the queue, of another bay than the one at work. -/
def queuedOnce : State :=
  { base with part := { base.part with queue := [⟨255, .maintErase .tune 0 1, bay1, ear, none, 0, 1, 0, none, none⟩] } }

/-- Channel 0 changed by `f`. -/
def channeled (f : Channel → Channel) : State := { attached with part := attached.part.modChannel 0 f }

/-- A sound ident record of the listener, its firmware area open from page 16. -/
def anIdent : Ident := ⟨ear, 1, 0, 1, 1, 4, 16, 32, 8, 0, 0, 0⟩

/-- A REFRESH of the listener with pages done. -/
def refreshing (progress : Nat) (phase : Phase) : Job :=
  ⟨1, .refresh .listener, bay1, ear, some phase, progress, 2, 1, some 300, some anIdent⟩

/-- Channel 0 with a REFRESH running, its request out. -/
def running (progress : Nat) (phase : Phase) (d : Dock) : State :=
  (channeled fun h =>
    { h with active := some (refreshing progress phase), tx := some ⟨d, none, 0, 1, .out 900⟩ }).tweaked fun p =>
      { p with bus := ⟨some (.poll 0 (.poll [] [] none), 400), 0⟩ }

/-- Channel 0 LOCKED, with a parked job or none. -/
def locked (j : Option Job) : State :=
  channeled fun h => { h with state := .locked, active := none, tx := none, parked := j }

theorem idle_bays (s : State) (h : ∀ (r : RackNo) (n : BayNo), (s.part.bay ⟨r, n⟩).identifyOwed = false ∧
    (s.part.bay ⟨r, n⟩).needUntune = false ∧ (s.part.bay ⟨r, n⟩).needRefresh = false) : s.part.noWork :=
  fun ⟨r, n⟩ => h r n

theorem witness_channel_clear : attached.takes 1 ∧ (attached.part.channel 0).state ≠ .locked ∧
    (locked none).takes 1 ∧ ((locked none).part.channel 0).state = .locked ∧
    ((locked none).part.channel 0).active = none ∧ (∀ d, ((locked none).part.channel d).parked = none) ∧
    (locked none).part.queue = [] := by decide +kernel
theorem witness_no_work : (locked none).part.noWork ∧ attached.part.noWork ∧ queuedOnce.part.noWork :=
  ⟨idle_bays _ (by decide +kernel), idle_bays _ (by decide +kernel), idle_bays _ (by decide +kernel)⟩
theorem witness_channel_clear_parked :
    (locked (some (refreshing 1 .program))).part.jobsSound ∧ (locked (some (refreshing 2 .program))).part.jobsSound ∧
    ((locked (some (refreshing 1 .program))).part.channel 0).parked = some (refreshing 1 .program) ∧
    (locked (some (refreshing 1 .program))).part.urgentQueued = false ∧
    areaCheck anIdent (some .firmware) (.pageProgram []) ((anIdent.fwBase + 1) * 256) = none ∧
    (refreshing 2 .program).total ≤ (refreshing 2 .program).progress := by
  unfold Part.jobsSound; decide +kernel
theorem witness_channel_stop : attached.takes 1 ∧ attached.part.jobsSound ∧
    (attached.part.channel 0).active.isSome = true ∧ attached.part.queue = [] ∧
    (locked (some (refreshing 1 .program))).takes 1 ∧
    ((locked (some (refreshing 1 .program))).part.channel 0).jobs = [refreshing 1 .program] := by
  unfold Part.jobsSound; decide +kernel

/-- The first bay occupied by a listed unit that no job is bound to, its image slot SEALED. -/
def free1 : State :=
  { attached with part := { (attached.part.modBay bay1 fun y => { y with job := none }) with
      listenerSlot := .sealed 2 1 0 } }

theorem witness_jobs_sound : free1.part.jobsSound := by unfold Part.jobsSound; decide +kernel
theorem witness_jobs : free1.takes 1 ∧ free1.part.present bay1 = true ∧ free1.part.bayState bay1 = .occupied ∧
    free1.part.listedIn bay1 = some ear ∧ (free1.part.bay bay1).job = none ∧ free1.part.allLocked = false ∧
    free1.part.queue.length < 32 ∧ (free1.part.entry ear).map (fun e => (e.cls, e.retired)) = some (.listener, false) ∧
    (free1.part.slot .listener).isSealed = true ∧ (free1.part.bay bay1).fault = none ∧
    maintWork (.val .read) (.val .boot) (.val 0xFFFFFF) (.val 16) .absent = some (.maintRead .boot 0xFFFFFF 16) := by
  decide +kernel

theorem witness_job_cancel : queuedOnce.takes 1 ∧ queuedOnce.part.jobsSound ∧
    (queuedOnce.part.jobNumbered 255).isSome = true ∧ (queuedOnce.part.queue.any (·.number == 255)) = true ∧
    queuedOnce.part.jobNumbered 1 = none ∧ (attached.part.jobNumbered 1).isSome = true ∧
    (attached.part.queue.all (·.number != 1)) = true := by
  unfold Part.jobsSound; decide +kernel

/-- The IDENT_READ of channel 0 gone out, its attempts so many. -/
def unanswered (n : Nat) : State := channeled fun h => { h with tx := some ⟨.identRead, none, 0, n, .out 9⟩ }

theorem witness_no_answer : (unanswered 2).deaf = false ∧ (unanswered 2).part.jobsSound ∧
    ((unanswered 2).part.channel 0).active.isSome = true ∧ (unanswered 3).part.jobsSound ∧
    ((unanswered 3).part.bay bay1).occupant.isSome = true ∧
    (∀ i ∈ (unanswered 3).part.jobs, i.bay = bay1 → i.number = 1) := by
  unfold Part.jobsSound; decide +kernel

/-- The polled bay changed by `f`. -/
def pollingBay (f : Bay → Bay) : State := polling.tweaked (·.modBay bay1 f)

theorem witness_bounce : ((pollingBay id).part.bay bay1).session.active = true ∧
    ((pollingBay fun y => { y with bounces := 2 }).part.bay bay1).bounces + 1 = 3 ∧
    ((pollingBay fun y => { y with bounces := 2 }).part.bay bay1).occupant.isSome = true ∧
    (polling.part.bay bay2).occupant = none ∧ (polling.part.bay bay2).session.active = false := by decide +kernel
theorem witness_telemetry : ((polling.part.bay bay1).session = .charging) ∧ (polling.part.bay bay1).occupant.isSome = true ∧
    ((polling.part.profile.hotLimit : Int) < 451) ∧ polling.part.profile.voltLimit < 4301 ∧
    ((pollingBay fun y => { y with weak := .pending 0, sessionStart := some 0, startLevel := some 50 }).part.bay bay1).weak =
      .pending 0 ∧
    54 < 50 + polling.part.profile.weakGain ∧ 60000 * 0 ≤ polling.part.now - 0 ∧
    ((pollingBay fun y => { y with session := .halted }).part.bay bay1).session.active = false ∧
    ((pollingBay fun y => { y with session := .topped }).part.bay bay1).session.active = true := by decide +kernel
theorem witness_dock_answer : polling.part.jobsSound ∧ (polling.part.channel 0).active.isSome = true ∧
    ((polling.part.channel 0).tx.map (·.serial)) = some 0 ∧ ((polling.part.channel 0).active.map (·.bay)) = some bay1 ∧
    (polling.part.channel 0).parked = none ∧
    (parseIdent [0, 0, 0, 0x22, 1, 0, 0, 1, 1, 0, 4, 0, 16, 0, 32, 0, 8, 0, 0, 0, 0]) = some anIdent ∧
    anIdent.sound = true ∧ (polling.part.entry ear).map (·.cls) = anIdent.unitClass := by
  unfold Part.jobsSound; decide +kernel
theorem witness_dock_done : (running 0 .program (.pageProgram [])).part.jobsSound ∧
    ((running 0 .program (.pageProgram [])).part.channel 0).state = .running ∧
    (running 0 .program (.pageProgram [])).part.urgentQueued = false ∧
    (refreshBlocks anIdent 2).2 ≤ (refreshing 0 .program).erased ∧
    areaCheck anIdent (some .firmware) (.pageProgram []) ((anIdent.fwBase + (0 + 1)) * 256) = none ∧
    (refreshing 1 .program).total ≤ 1 + 1 ∧ (running 1 .commit (.commit 5)).part.jobsSound ∧
    0 + 1 < (refreshBlocks anIdent 20).2 ∧
    areaCheck anIdent (some .firmware) .blockErase (((refreshBlocks anIdent 20).1 + (0 + 1)) * 4096) = none := by
  unfold Part.jobsSound; decide +kernel
theorem witness_dock_check : (running 2 .check (.areaCheck 2)).part.jobsSound ∧
    ((running 2 .check (.areaCheck 2)).part.channel 0).parked = none ∧
    (running 0 .erase .blockErase).part.jobsSound ∧
    ((running 0 .erase .blockErase).part.channel 0).state = .running ∧
    (running 0 .erase .blockErase).part.urgentQueued = false ∧ (refreshBlocks anIdent 2).2 ≤ 0 + 1 ∧
    0 < (refreshing 0 .erase).total ∧
    areaCheck anIdent (some .firmware) (.pageProgram []) ((anIdent.fwBase + 0) * 256) = none := by
  unfold Part.jobsSound; decide +kernel
/-- Channel 0 with a MAINT job of the firmware area running, its request out. -/
def maintaining (w : JobWork) (progress total : Nat) (d : Dock) : State :=
  channeled fun h => { h with
    active := some ⟨1, w, bay1, ear, some .read, progress, total, 0, some 300, some anIdent⟩
    tx := some ⟨d, some 4096, 0, 1, .out 900⟩ }

theorem witness_dock_maint : (maintaining (.maintRead .firmware 4096 2) 0 2 .pageRead).part.jobsSound ∧
    (maintaining (.maintErase .firmware 4096 3) 0 3 .blockErase).part.jobsSound ∧
    (maintaining (.maintWrite .firmware 4096 []) 0 1 (.pageProgram [])).part.jobsSound ∧
    ((maintaining (.maintRead .firmware 4096 2) 1 2 .pageRead).part.channel 0).parked = none ∧
    (maintaining (.maintRead .firmware 4096 2) 1 2 .pageRead).part.queue = [] ∧
    (List.replicate 256 (0 : Byte)).length = 256 ∧
    areaCheck anIdent (some .firmware) .pageRead (4096 + 256 * (0 + 1)) = none ∧
    areaCheck anIdent (some .firmware) .blockErase (4096 + 4096 * (0 + 1)) = none ∧
    areaCheck anIdent (some .firmware) .blockErase (4096 + 4096 * (1 + 1)) = some .outOfArea ∧
    areaCheck anIdent (some .tune) .pageRead (4096 + 256 * (0 + 1)) = some .outOfArea := by
  unfold Part.jobsSound; decide +kernel
theorem witness_dock_tune :
    ((channeled fun h => { h with
      active := some ⟨1, .tune none, bay1, ear, some .write, 0, 1, 0, some 300, some anIdent⟩
      tx := some ⟨.tuneWrite 0 0 1, some 2048, 0, 1, .out 900⟩ }).part.channel 0).active.map (·.work) =
        some (.tune none) := by decide +kernel

/-- The listener's image slot LOADING 2 pages, page 0 written. -/
def loading : State := { base with part := { base.part with listenerSlot := .loading 7 2 0 [0] } }

theorem witness_images : base.takes 1 ∧ base.part.refreshNames .listener = false ∧ base.part.store.op = none ∧
    loading.takes 1 ∧ loading.part.slot .listener = .loading 7 2 0 [0] ∧ loading.part.store.op = none ∧
    (List.replicate 256 (0 : Byte)).length = 256 := by decide +kernel
theorem witness_image_page_busy :
    ({ loading with part := { loading.part with store := (storing (.retireSave [])).part.store } } : State).part.store.op ≠
      none := by decide +kernel

/-- A microphone ready in the first bay, and a listener tune for the same bay's listener. -/
def ready (c : UnitClass) : State :=
  { attached with part :=
      (((attached.part.modEntry ear fun e => { e with cls := c }).modRack 0 fun k => { k with ready := [0] }).setTour 0
        ⟨.live, [], some 0, 10, 0, []⟩) }

theorem witness_issue_voice : (ready .voice).takes 1 ∧
    issueForm (.val 0) (.val .voice) .absent .absent .absent = some (.byRack 0 .voice none) ∧
    (ready .voice).part.freeRecord = some 0 ∧
    (ready .voice).part.issueChoice (.byRack 0 .voice none) = .inl (bay1, none) ∧
    ((ready .voice).part.occupantEntry bay1).isSome = true := by decide +kernel
theorem witness_issue_listener : (ready .listener).takes 1 ∧
    issueForm .absent .absent (.val ear) (.val 1) (.val 1) = some (.byUnit ear (some ⟨0, 0⟩)) ∧
    (ready .listener).part.freeRecord = some 0 ∧
    (ready .listener).part.issueChoice (.byUnit ear (some ⟨0, 0⟩)) = .inl (bay1, some ⟨0, 0⟩) ∧
    ((ready .listener).part.occupantEntry bay1).isSome = true := by decide +kernel

/-- Issue record 1 in a state with its timers running. -/
def issuing (x : IssueState) : State :=
  { base with part := base.part.setIssue 0 { Issue.free with state := x, limit := some 9, pick := some 9 } }

theorem witness_issue_ends : (issuing .picking).takes 1 ∧ ((issuing .picking).part.issue 0).state.inProgress = true ∧
    ((issuing .free).part.issue 0).state.inProgress = false ∧ (issuing .tuning).deaf = false ∧
    ((issuing .tuning).part.issue 0).state = .tuning ∧ ((issuing .tuning).part.issue 0).limit = some 9 ∧
    ((issuing .picking).part.issue 0).pick = some 9 ∧
    base.part.profile.disabledKinds.contains .cancelled = false := by decide +kernel

theorem witness_report_enable : base.takes 1 ∧ enableKinds .absent .absent = some ([], []) ∧
    enableKinds (.val .all) (.val (.list [some .found])) = some (allKinds, [.found]) := by decide +kernel
theorem witness_set : base.takes 1 ∧ setValueOk (.num .linger) (.num 1501) = false ∧
    setValueOk (.num .linger) (.num 1500) = true ∧
    (base.part.profile.writeAll [(.num .t1, .num 40)]).ascending = false ∧
    (base.part.profile.writeAll [(.num .linger, .num 1500)]).ascending = true ∧
    base.part.turnsOffUsed (.num .linger, .num 1500) = false ∧
    opened.part.turnsOffUsed (.langEnable 0, .onOff false) = true := by decide +kernel
theorem witness_set_zone : onAir.takes 1 ∧ (onAir.part.zone 0).state = .up ∧ (base.part.zone 7).state = .down ∧
    lastSet [(.zoneEnable 0, .onOff true), (.zoneEnable 0, .onOff false)] (.zoneEnable 0) = some (.onOff false) ∧
    setValueOk (.zoneEnable 0) (.onOff false) = true ∧
    (onAir.part.profile.writeAll [(.zoneEnable 0, .onOff false)]).ascending = true := by decide +kernel
theorem witness_set_rack : free1.takes 1 ∧ (free1.part.rack 0).state = .online ∧ (free1.part.rack 1).state = .offline ∧
    lastSet [(.rackEnable 1, .onOff false), (.num .voltLimit, .num 4301)] (.rackEnable 0) = none ∧
    setValueOk (.num .voltLimit) (.num 4301) = true ∧ setValueOk (.rackEnable 1) (.onOff false) = true ∧
    free1.part.profile.value (.num .voltLimit) ≠ .num 4301 ∧
    (free1.part.profile.writeAll [(.num .voltLimit, .num 4301)]).ascending = true := by decide +kernel
theorem witness_set_ready : free1.part.claimantsSound ∧ free1.part.docksSound ∧ free1.part.present bay1 = true ∧
    setValueOk (.num .readyLevel) (.num 50) = true := by
  unfold Part.claimantsSound Part.docksSound; decide +kernel
theorem witness_store_commands : base.takes 1 ∧ base.part.store.op = none ∧ base.part.anyJobOnChannel = false ∧
    ({ storing (.retireSave []) with link := Link.initial } : State).takes 1 ∧
    (storing (.retireSave [])).part.store.op ≠ none := by decide +kernel
theorem witness_operation_ends (op : StoreOp) : (storing op).deaf = false ∧
    (storing op).link.slot = some ⟨1, txt "X", false⟩ ∧ (storing op).part.store.op = some op ∧
    (storing op).nv.upsets = [] ∧ (storing op).nv.wf = true := by
  refine ⟨?_, rfl, rfl, ?_, ?_⟩
  · exact (by decide +kernel : base.part.store.loading = false)
  · exact (by decide +kernel : base.nv.upsets = [])
  · exact (by decide +kernel : base.nv.wf = true)

end Sys2Proof.Tests
end

section
/-! The records as a full reset leaves them. -/

namespace Sys2Proof.Machine

section
variable (cause : ResetCause) (straps : Straps) (baud free : Nat)

@[simp] theorem Part.initial_units : (Part.initial cause straps baud free).units = [] := rfl
@[simp] theorem Part.initial_queue : (Part.initial cause straps baud free).queue = [] := rfl

@[simp] theorem Part.initial_tour (k : TourNo) : (Part.initial cause straps baud free).tour k = Tour.free := by
  simp [Part.tour, Part.initial]

@[simp] theorem Part.initial_rack (r : RackNo) :
    (Part.initial cause straps baud free).rack r = Rack.initial .offline none := by
  simp [Part.rack, Part.initial]

@[simp] theorem Part.initial_bay (b : BayRef) : (Part.initial cause straps baud free).bay b = Bay.initial := by
  simp [Part.bay, Rack.bay, Rack.initial]

@[simp] theorem Part.initial_channel (c : ChannelNo) :
    (Part.initial cause straps baud free).channel c = Channel.initial := by
  simp [Part.channel, Part.initial]

@[simp] theorem Part.initial_issue (n : IssueNo) : (Part.initial cause straps baud free).issue n = Issue.free := by
  simp [Part.issue, Part.initial]

@[simp] theorem Part.initial_jobs : (Part.initial cause straps baud free).jobs = [] := by
  simp [Part.jobs, Part.channelJobs, Channel.initial]

/-- The part a full reset leaves meets every clause of the records' invariant that speaks of the part alone. -/
theorem State.recordsSound_of_initial {s : State} (h : s.part = Part.initial cause straps baud free) :
    s.recordsSound := by
  refine ⟨?table, ?docks, ?tours, ?counts, ?claimants, ?ready, ?jobs, ?bindings, ?issues, ?loading⟩
  case table => simp [h, Part.tableSound]
  case docks => simp [h, Part.docksSound, Bay.initial]
  case tours => simp [h, Part.toursSound, Tour.free]
  case counts =>
    simp [h, Part.countsSound, Part.heldCount, Part.issuingCount, Part.retuningCount, Tour.free, Issue.free,
      IssueState.inProgress]
  case claimants => simp [h, Part.claimantsSound, Issue.free, IssueState.inProgress]
  case ready => simp [h, Part.readySound, Rack.initial]
  case jobs => simp [h, Part.jobsSound, Channel.sound, Channel.initial]
  case bindings => simp [h, Part.bindingsSound, Bay.initial]
  case issues => simp [h, Part.issuesSound, Issue.free]
  case loading => intro _; rw [h]; rfl

end

/-- Settles O3: the store is blank and nothing is ready to send, and the part is as a full reset leaves it. -/
theorem invariantHoldsAtReset : Obligations.InvariantHoldsAtReset :=
  ⟨rfl, State.recordsSound_of_initial _ _ _ _ rfl⟩

end Sys2Proof.Machine
end

section
/-! A command with its owner's answer, and what the operand forms refuse. -/

namespace Sys2Proof.Machine

/-- A command whose row hands it to an owner that answers at once: the answer, and the part the owner made. -/
theorem exec_answered {i : Instr} {s : State} {tag : Byte} {verb : Text} {o : Owner} {q : Part} {r : ResultWord}
    {fs : Fields} (h : s.takes tag) (row : exec i s = .next (s.hostCommand tag verb o))
    (owned : o s.nv s.part = (q, .reply r fs)) :
    ∃ t, exec i s = .next t ∧ s.answered t tag verb r fs ∧ t.part = q :=
  ⟨_, row, State.hostCommand_reply h verb owned⟩

/-- The same where the statement frames the part the owner made. -/
theorem exec_answered_step {R : Part → Part → Prop} {i : Instr} {s : State} {tag : Byte} {verb : Text} {o : Owner}
    {p q : Part} {r : ResultWord} {fs : Fields} (h : s.takes tag)
    (row : exec i s = .next (s.hostCommand tag verb o)) (owned : o s.nv s.part = (q, .reply r fs)) (step : R p q) :
    ∃ t, exec i s = .next t ∧ s.answered t tag verb r fs ∧ R p t.part := by
  obtain ⟨t, run, answered, rfl⟩ := exec_answered h row owned
  exact ⟨t, run, answered, step⟩

/-! ### Fields that give no value -/

theorem indexField_none {lo n : Nat} {f : HostField Nat}
    (h : f = .absent ∨ f = .bad ∨ ∃ v, f = .val v ∧ (v < lo ∨ lo + n ≤ v)) : indexField lo n f = none := by
  obtain rfl | rfl | ⟨v, rfl, out⟩ := h
  · rfl
  · rfl
  · exact indexField_out out

theorem unitField_none {f : HostField UnitId}
    (h : f = .absent ∨ f = .bad ∨ f = .val 0#32 ∨ f = .val 0xFFFFFFFF#32) : unitField f = none := by
  obtain rfl | rfl | rfl | rfl := h <;> rfl

theorem bayField_none {f : HostField BayName}
    (h : f = .absent ∨ f = .bad ∨ ∃ r n, f = .val ⟨r, n⟩ ∧ (7 < r ∨ n < 1 ∨ 24 < n)) : bayField f = none := by
  obtain rfl | rfl | ⟨r, n, rfl, out⟩ := h
  · rfl
  · rfl
  · have : ¬(r < 8 ∧ 1 ≤ n ∧ n - 1 < 24) := by omega
    simp [bayField, this]

theorem rangeField_none {lo hi n : Nat} (h : n < lo ∨ hi < n) : rangeField lo hi (.val n) = none := by
  have : ¬(lo ≤ n ∧ n ≤ hi) := by omega
  simp [rangeField, this]

end Sys2Proof.Machine
end

section
/-! The commands that read tours, units, zones and the house record, and the operands out of range. -/

namespace Sys2Proof.Machine

/-- Settles O17: each owner hands back the part it was given, with the fields of what the command names. -/
theorem readsOfToursUnitsAndZonesChangeNothing : Obligations.ReadsOfToursUnitsAndZonesChangeNothing := by
  intro s tag h
  refine ⟨fun k => ?tourRead, fun u i e hu he => ?unitRead, fun a n ha hn hn' => ?unitList,
    fun a n ha hn hn' => ?retireList, fun z => ?zone, ?houseRead⟩
  case tourRead => exact exec_answered h rfl (by simp [ownTourRead])
  case unitRead => exact exec_answered h rfl (by simp [ownUnitRead, hu, he])
  case unitList => exact exec_answered h rfl (by simp [ownUnitList, ha, hn, hn', Config.tableSize])
  case retireList => exact exec_answered h rfl (by simp [ownRetireList, ha, hn, hn'])
  case zone =>
    obtain ⟨t, read, answered, same⟩ := exec_answered (i := .zoneRead tag (.val z.val)) h rfl
      (show ownZoneRead _ s.nv s.part = (s.part, .reply .ok (s.part.zoneFields z)) by simp [ownZoneRead])
    obtain ⟨u, slots, answered', same'⟩ := exec_answered (i := .zoneSlots tag (.val z.val)) h rfl
      (show ownZoneSlots _ s.nv s.part = (s.part, .reply .ok (s.part.slotFields z)) by simp [ownZoneSlots])
    exact ⟨t, u, read, slots, answered, same, answered', same'⟩
  case houseRead => exact exec_answered h rfl rfl

/-- Settles O19: each command asks its field for a value before anything else, and such a field gives none. -/
theorem operandsOutOfRangeAreRefused : Obligations.OperandsOutOfRangeAreRefused := by
  intro s tag h
  refine ⟨fun f hf => ?tours, fun f hf => ?zones, fun f hf => ?channels, fun f hf => ?issues, fun f hf => ?units,
    fun f hf => ?bays⟩
  case tours =>
    have out : tourField f = none := indexField_none (by simpa only [Nat.succ_le_iff] using hf)
    simp only [List.forall_mem_cons]
    exact ⟨exec_answered h rfl (by simp [ownTourStart, out, refuse]),
      exec_answered h rfl (by simp [ownTourPause, out, refuse]),
      exec_answered h rfl (by simp [ownTourClose, out, refuse]),
      exec_answered h rfl (by simp [ownTourRead, out, refuse]), List.forall_mem_nil _⟩
  case zones =>
    have out : indexField 0 8 f = none :=
      indexField_none (by simpa only [Nat.succ_le_iff, Nat.not_lt_zero, false_or] using hf)
    simp only [List.forall_mem_cons]
    exact ⟨exec_answered h rfl (by simp [ownZoneRead, zoneField, out, refuse]),
      exec_answered h rfl (by simp [ownZoneSlots, zoneField, out, refuse]),
      exec_answered h rfl (by simp [ownRackRead, rackField, out, refuse]), List.forall_mem_nil _⟩
  case channels =>
    have out : channelField f = none :=
      indexField_none (by simpa only [Nat.succ_le_iff, Nat.not_lt_zero, false_or] using hf)
    simp only [List.forall_mem_cons]
    exact ⟨exec_answered h rfl (by simp [ownChannelClear, out, refuse]),
      exec_answered h rfl (by simp [ownChannelStop, out, refuse]),
      exec_answered h rfl (by simp [ownChannelRead, out, refuse]), List.forall_mem_nil _⟩
  case issues =>
    have out : issueField f = none := indexField_none (by simpa only [Nat.succ_le_iff] using hf)
    simp only [List.forall_mem_cons]
    exact ⟨exec_answered h rfl (by simp [ownIssueCancel, out, refuse]),
      exec_answered h rfl (by simp [ownIssueRead, out, refuse]), List.forall_mem_nil _⟩
  case units =>
    have out : unitField f = none := unitField_none hf
    simp only [List.forall_mem_cons]
    exact ⟨exec_answered h rfl (by simp [ownUnitRead, out, refuse]),
      exec_answered h rfl (by simp [ownUnitForget, out, refuse]),
      exec_answered h rfl (by simp [ownUnitUnassign, out, refuse]),
      exec_answered h rfl (by simp [ownUnitLocate, out, refuse]),
      exec_answered h rfl (by simp [ownUnitRetire, out, refuse]),
      exec_answered h rfl (by simp [ownRetirePurge, out, refuse]), List.forall_mem_nil _⟩
  case bays =>
    have out : bayField f = none := bayField_none hf
    simp only [List.forall_mem_cons]
    exact ⟨exec_answered h rfl (by simp [ownBayRead, out, refuse]),
      exec_answered h rfl (by simp [ownBayDisable, out, refuse]),
      exec_answered h rfl (by simp [ownBayEnable, out, refuse]),
      exec_answered h rfl (by simp [ownFaultClear, out, refuse]),
      exec_answered h rfl (by simp [ownFaultRead, out, refuse]),
      exec_answered h rfl (by simp [ownJobRefresh, out, refuse]), List.forall_mem_nil _⟩

end Sys2Proof.Machine
end

section
/-! The tour commands: what each changes of its tour, and what a step of the zones leaves of the tour and unit
tables. -/

namespace Sys2Proof.Machine

/-! ### What a zone step leaves -/

theorem ZoneStep.tour_eq {p q : Part} (h : ZoneStep p q) (k : TourNo) : q.tour k = p.tour k := by rw [h]; rfl

theorem ZoneStep.entry_eq {p q : Part} (h : ZoneStep p q) (u : UnitId) : q.entry u = p.entry u := by rw [h]; rfl

theorem ZoneStep.withFrames {p q : Part} (h : ZoneStep p q) (f : FrameStore) :
    ZoneStep { p with frames := f } { q with frames := f } := by
  unfold ZoneStep at h ⊢; rw [h]

theorem ZoneStep.restream_raise (before after : Part) (src : Source) (k : EventKind) :
    ZoneStep after ((before.restream after).raise src k) :=
  (ZoneStep.restream before after).trans (ReportStep.raise _ src k).toZone

/-! ### TOUR_OPEN, TOUR_START, TOUR_PAUSE (R3 to R5) -/

/-- Settles O20: every operand has its value and the tour is FREE, so the owner opens it. -/
theorem tourOpenMakesAFormingTour : Obligations.TourOpenMakesAFormingTour := by
  intro s tag k name l n h hname hn hn' hl hk
  exact exec_answered h rfl (by simp [ownTourOpen, hname, hn, hn', hl, hk])

/-- Settles O21: beside the state each makes only the recompute of the effective streams, a step of the zones. -/
theorem tourStartAndPauseMoveTheState : Obligations.TourStartAndPauseMoveTheState := by
  intro s tag k h
  refine ⟨fun hstate hfloor => ?start, fun hlive => ?pause⟩
  case start =>
    have startable : ¬((s.part.tour k).state ≠ .forming ∧ (s.part.tour k).state ≠ .paused) :=
      fun ⟨notForming, notPaused⟩ => hstate.elim notForming notPaused
    exact exec_answered_step h rfl (by simp only [ownTourStart, tourField_val, startable, hfloor]; rfl)
      (ZoneStep.restream_raise _ _ _ _)
  case pause =>
    exact exec_answered_step h rfl (by simp only [ownTourPause, tourField_val, hlive]; rfl)
      (ZoneStep.restream_raise _ _ _ _)

/-! ### TOUR_CAPACITY (R8) -/

/-- The checks of R15 for a tour that is not FREE and has the capacity `n`. -/
theorem Part.claimCheck_setTour_capacity (p : Part) (k : TourNo) (n : Nat) (l : LangNo)
    (hk : (p.tour k).state ≠ .free) :
    (p.setTour k { p.tour k with capacity := n }).claimCheck k l =
      if p.langEnabled l = false then some .badArg
      else if (p.tour k).state = .closing then some .state
      else if n ≤ (p.tour k).count then some .full
      else none := by
  have closed : ((p.tour k).state.open = false) = ((p.tour k).state = .closing) := by
    cases hs : (p.tour k).state <;> simp_all [TourState.open]
  have enabled : (p.setTour k { p.tour k with capacity := n }).langEnabled l = p.langEnabled l := rfl
  simp [Part.claimCheck, enabled, closed]

/-- Settles O23: by the checks of TOUR_CAPACITY in their order. -/
theorem tourCapacityGovernsLaterClaims : Obligations.TourCapacityGovernsLaterClaims := by
  intro s tag k n h
  refine ⟨fun hn hn' => ⟨fun hk hcount => ?taken, fun refused => ?state⟩, fun out => ?capacity, fun m out => ?tour⟩
  case taken =>
    obtain ⟨t, run, answered, part⟩ := exec_answered (i := .tourCapacity tag (.val (k.val + 1)) (.val n)) h rfl
      (show ownTourCapacity _ _ s.nv s.part =
          (s.part.setTour k { s.part.tour k with capacity := n }, .reply .ok [fld "capacity" (numText n)]) by
        simp [ownTourCapacity, hn, hn', hk, Nat.not_lt.mpr hcount])
    exact ⟨t, run, answered, part, fun l => part ▸ Part.claimCheck_setTour_capacity s.part k n l hk⟩
  case state =>
    refine exec_answered h rfl ?_
    by_cases hfree : (s.part.tour k).state = .free
    · simp [ownTourCapacity, hn, hn', hfree, refuse]
    · simp [ownTourCapacity, hn, hn', hfree, refused.resolve_left hfree, refuse]
  case capacity => exact exec_answered h rfl (by simp [ownTourCapacity, rangeField_none out, refuse])
  case tour =>
    have out' : tourField (.val m) = none := indexField_out (by omega)
    exact exec_answered h rfl (by simp [ownTourCapacity, out', refuse])

/-! ### TOUR_VOICE_ADD and TOUR_VOICE_DROP (R10, R11) -/

theorem ZoneStep.addSource (p : Part) (k : TourNo) (l : LangNo) (e : Entry) :
    ZoneStep (p.setTour k { p.tour k with sources := (p.tour k).sources ++ [(l, e.unit)] }) (p.addSource k l e) := by
  simp only [Part.addSource]
  refine ZoneStep.trans ?_ (ZoneStep.restream_raise _ _ _ _)
  split
  · exact ZoneStep.claimUplink _ _ _ _
  · exact ZoneStep.refl _

/-- A source that leaves its tour takes its stream's frame along (R11, R61). -/
theorem ZoneStep.dropSource (p : Part) (k : TourNo) (x : LangNo × UnitId) :
    ZoneStep
      { p.setTour k { p.tour k with sources := (p.tour k).sources.filter (· != x) } with
        frames := p.frames.discard ⟨k, x.1⟩ }
      (p.dropSource k x) := by
  simp only [Part.dropSource]
  split
  · next z _ =>
    have released := ZoneStep.releaseUplink
      (p.modTour k fun t => { t with sources := t.sources.filter (· != x) }) z x.2
    have frames :
        ((p.modTour k fun t => { t with sources := t.sources.filter (· != x) }).releaseUplink z x.2).frames =
          p.frames := by rw [released]; rfl
    rw [frames]
    exact released.withFrames _
  · exact ZoneStep.refl _

/-- Settles O24: the change of the source list and of the frames, then a step of the zones. -/
theorem tourVoiceAddAndDropChangeTheSources : Obligations.TourVoiceAddAndDropChangeTheSources := by
  refine ⟨fun s tag k l u e h hu hl hopen he hcls hret hdock hfree hlang hroom => ?add,
    fun s tag k l u h hk hsource hfloor => ?drop⟩
  case add =>
    exact exec_answered_step h rfl
      (by simp only [ownTourVoiceAdd, tourField_val, langField_val, unitField_val hu]
          simp [hl, hopen, he, hcls, hret, hdock, hfree, hlang, Config.sourcesMax, Nat.not_le.mpr hroom])
      (ZoneStep.addSource _ _ _ _)
  case drop =>
    exact exec_answered_step h rfl
      (by simp only [ownTourVoiceDrop, tourField_val, langField_val, hsource, hfloor, if_neg hk]; rfl)
      ((ZoneStep.dropSource _ _ _).trans (ZoneStep.restream_raise _ _ _ _))

end Sys2Proof.Machine
end

section
/-! TOUR_CLOSE: the entries and the tour after its sources are dropped and its RETUNE notices end. -/

namespace Sys2Proof.Machine

/-! ### Entries by their units -/

/-- In a list whose items have distinct keys an item is found by its key. -/
theorem find?_of_nodup_map {α β : Type} [BEq β] [LawfulBEq β] {f : α → β} {l : List α} (h : (l.map f).Nodup) {x : α}
    (hx : x ∈ l) : l.find? (fun y => f y == f x) = some x := by
  induction l with
  | nil => cases hx
  | cons a l ih =>
    obtain ⟨fresh, distinct⟩ := List.nodup_cons.mp h
    cases List.mem_cons.mp hx with
    | inl first => subst first; exact List.find?_cons_of_pos (beq_self_eq_true _)
    | inr later =>
      have other : (f a == f x) = false := beq_false_of_ne fun e => fresh (e ▸ List.mem_map_of_mem later)
      simp only [List.find?_cons, other, ih distinct later]

/-- Where no unit is listed twice, a listed entry is its unit's entry. -/
theorem Part.entry_of_mem {p : Part} (h : (p.units.map (·.2.unit)).Nodup) {x : Nat × Entry} (hx : x ∈ p.units) :
    p.entry x.2.unit = some x.2 :=
  congrArg (Option.map fun y : Nat × Entry => y.2) (find?_of_nodup_map h hx)

/-- An entry after a change of a unit's entry that keeps its unit. -/
theorem Part.entry_modEntry (p : Part) (u v : UnitId) {f : Entry → Entry} (hf : ∀ e, (f e).unit = e.unit) :
    (p.modEntry u f).entry v = (p.entry v).map fun e => if v = u then f e else e := by
  have key : (fun x : Nat × Entry => x.2.unit == v) ∘ (fun x => if x.2.unit = u then (x.1, f x.2) else x) =
      fun x => x.2.unit == v := by
    funext x
    simp only [Function.comp]
    split <;> simp [hf]
  simp only [Part.entry, Part.find, Part.modEntry, List.find?_map, key, Option.map_map]
  refine Option.map_congr fun x hx => ?_
  have hv : x.2.unit = v := by simpa using List.find?_some hx
  simp only [Function.comp, hv]
  split <;> rfl

/-! ### The sources of a closing tour -/

/-- A dropped source leaves its tour's list; other tours and the unit table stay. -/
theorem Part.dropSource_tables (p : Part) (k : TourNo) (x : LangNo × UnitId) :
    (p.dropSource k x).tour k = { p.tour k with sources := (p.tour k).sources.filter (· != x) } ∧
      (∀ j, j ≠ k → (p.dropSource k x).tour j = p.tour j) ∧ (p.dropSource k x).units = p.units := by
  have h := ZoneStep.dropSource p k x
  refine ⟨(h.tour_eq k).trans (Part.tour_setTour_same p k _),
    fun j hj => (h.tour_eq j).trans (Part.tour_setTour_other p k j _ hj), ?_⟩
  rw [h]; rfl

theorem Part.foldl_dropSource_tables (k : TourNo) (xs : List (LangNo × UnitId)) (p : Part) :
    (xs.foldl (fun q x => q.dropSource k x) p).tour k =
        { p.tour k with sources := (p.tour k).sources.filter fun y => !xs.contains y } ∧
      (∀ j, j ≠ k → (xs.foldl (fun q x => q.dropSource k x) p).tour j = p.tour j) ∧
      (xs.foldl (fun q x => q.dropSource k x) p).units = p.units := by
  induction xs generalizing p with
  | nil =>
    have all : ((p.tour k).sources.filter fun y => !([] : List (LangNo × UnitId)).contains y) = (p.tour k).sources :=
      List.filter_eq_self.mpr fun _ _ => rfl
    exact ⟨by rw [all]; rfl, fun _ _ => rfl, rfl⟩
  | cons x xs ih =>
    obtain ⟨tour, others, units⟩ := Part.dropSource_tables p k x
    obtain ⟨tour', others', units'⟩ := ih (p.dropSource k x)
    refine ⟨?_, fun j hj => (others' j hj).trans (others j hj), units'.trans units⟩
    have both : (((p.tour k).sources.filter (· != x)).filter fun y => !xs.contains y) =
        (p.tour k).sources.filter fun y => !(x :: xs).contains y := by
      rw [List.filter_filter]
      refine List.filter_congr fun y _ => ?_
      rw [List.contains_cons, Bool.not_or, Bool.and_comm, bne]
    rw [List.foldl_cons, tour', tour, ← both]

/-! ### The RETUNE notices that name a tour -/

/-- The unit's notice is aimed at the tour. -/
def Part.noticeOn (p : Part) (k : TourNo) (u : UnitId) : Prop :=
  ∃ e n, p.entry u = some e ∧ e.notice = some n ∧ n.target.map (·.tour) = some k

/-- The unit's notice holds a claim. -/
def Part.reserves (p : Part) (u : UnitId) : Bool := ((p.entry u).bind (·.notice)).any (·.reserving)

/-- From `p` to `q` the notices of `us`, all aimed at the tour, have ended and the claims they held on it are
released (R16, R82). -/
structure NoticesEnded (k : TourNo) (us : List UnitId) (p q : Part) : Prop where
  tour : q.tour k = { p.tour k with count := (p.tour k).count - us.countP p.reserves }
  others : ∀ j, j ≠ k → q.tour j = p.tour j
  entry : ∀ v, q.entry v = (p.entry v).map fun e => if us.contains v = true then { e with notice := none } else e

theorem NoticesEnded.nil (k : TourNo) (p : Part) : NoticesEnded k [] p p :=
  ⟨by simp, fun _ _ => rfl, fun v => by simp⟩

theorem NoticesEnded.zoneStep {k : TourNo} {us : List UnitId} {p q r : Part} (h : NoticesEnded k us p q)
    (hz : ZoneStep q r) : NoticesEnded k us p r :=
  ⟨(hz.tour_eq k).trans h.tour, fun j hj => (hz.tour_eq j).trans (h.others j hj),
    fun v => (hz.entry_eq v).trans (h.entry v)⟩

/-- The end of one notice aimed at a tour that is not CLOSING, which a release cannot free. -/
theorem NoticesEnded.clearNotice {p : Part} {k : TourNo} {u : UnitId} (hu : p.noticeOn k u)
    (hk : (p.tour k).state ≠ .closing) : NoticesEnded k [u] p (p.clearNotice true u) := by
  obtain ⟨e, n, he, hn, ht⟩ := hu
  obtain ⟨t, hnt, rfl⟩ := Option.map_eq_some_iff.mp ht
  have cleared (v : UnitId) : (p.modEntry u fun e => { e with notice := none }).entry v =
      (p.entry v).map fun e => if [u].contains v = true then { e with notice := none } else e := by
    simpa using Part.entry_modEntry p u v (f := fun e => { e with notice := none }) fun _ => rfl
  by_cases hr : n.reserving = true
  · have ended : p.clearNotice true u =
        (p.modEntry u fun e => { e with notice := none }).setTour t.tour
          { p.tour t.tour with count := (p.tour t.tour).count - 1 } := by
      have open' : ¬((p.tour t.tour).state = .closing ∧ (p.tour t.tour).count ≤ 1) := fun h => hk h.1
      have same : (p.modEntry u fun e => { e with notice := none }).tour t.tour = p.tour t.tour := rfl
      simp [Part.clearNotice, he, hn, hr, hnt, Part.releaseClaim, same, open']
    rw [ended]
    refine ⟨?_, fun j hj => Part.tour_setTour_other _ _ _ _ hj, cleared⟩
    simp [Part.reserves, he, hn, hr]
  · have ended : p.clearNotice true u = p.modEntry u fun e => { e with notice := none } := by
      simp [Part.clearNotice, he, hn, hr]
    rw [ended]
    refine ⟨?_, fun _ _ => rfl, cleared⟩
    simp [Part.reserves, he, hn, hr]
    rfl

/-- The end of one notice leaves every other unit's entry. -/
theorem NoticesEnded.entry_other {k : TourNo} {u v : UnitId} {p q : Part} (h : NoticesEnded k [u] p q) (hv : v ≠ u) :
    q.entry v = p.entry v := by
  simp [h.entry v, hv]

theorem NoticesEnded.foldl_clearNotice {k : TourNo} (us : List UnitId) {p : Part} (distinct : us.Nodup)
    (aimed : ∀ u ∈ us, p.noticeOn k u) (hk : (p.tour k).state ≠ .closing) :
    NoticesEnded k us p (us.foldl (fun q u => q.clearNotice true u) p) := by
  induction us generalizing p with
  | nil => exact NoticesEnded.nil k p
  | cons u us ih =>
    obtain ⟨hu, distinct'⟩ := List.nodup_cons.mp distinct
    have first := NoticesEnded.clearNotice (aimed u List.mem_cons_self) hk
    have kept : ∀ v ∈ us, (p.clearNotice true u).entry v = p.entry v :=
      fun v hv => first.entry_other fun e => hu (e ▸ hv)
    have rest := ih (p := p.clearNotice true u) distinct'
      (fun v hv => by
        have := aimed v (List.mem_cons_of_mem u hv)
        simpa only [Part.noticeOn, kept v hv] using this)
      (by rw [first.tour]; exact hk)
    have counted : us.countP (p.clearNotice true u).reserves = us.countP p.reserves :=
      List.countP_congr fun v hv => by simp only [Part.reserves, kept v hv]
    refine ⟨?_, fun j hj => (rest.others j hj).trans (first.others j hj), fun v => ?_⟩
    · rw [List.foldl_cons, rest.tour, first.tour, counted]
      simp [List.countP_cons, Nat.sub_sub, Nat.add_comm]
    · rw [List.foldl_cons, rest.entry, first.entry, Option.map_map]
      refine Option.map_congr fun e _ => ?_
      by_cases hvu : v = u <;> simp [hvu, hu]

theorem NoticesEnded.endNotices {k : TourNo} {us : List UnitId} {p : Part} (distinct : us.Nodup)
    (aimed : ∀ u ∈ us, p.noticeOn k u) (hk : (p.tour k).state ≠ .closing) :
    NoticesEnded k us p (p.endNotices us) := by
  have pending : (us.filter fun u => ((p.entry u).bind (·.notice)).isSome) = us :=
    List.filter_eq_self.mpr fun u hu => by
      obtain ⟨e, n, he, hn, _⟩ := aimed u hu
      simp [he, hn]
  simp only [Part.endNotices, pending]
  split
  · next empty => rw [List.isEmpty_iff.mp empty]; exact NoticesEnded.nil k p
  · exact (NoticesEnded.foldl_clearNotice us distinct aimed hk).zoneStep (ZoneStep.unplaceNoticesIn _ _ _)

theorem Part.retunesNaming_nodup {p : Part} (h : (p.units.map (·.2.unit)).Nodup) (k : TourNo) :
    (p.retunesNaming k).Nodup :=
  h.sublist (List.filter_sublist.map _)

theorem Part.noticeOn_of_retunesNaming {p : Part} (h : (p.units.map (·.2.unit)).Nodup) {k : TourNo} {u : UnitId}
    (hu : u ∈ p.retunesNaming k) : p.noticeOn k u := by
  obtain ⟨x, hx, rfl⟩ := List.mem_map.mp hu
  obtain ⟨listed, names⟩ := List.mem_filter.mp hx
  cases hn : x.2.notice with
  | none => simp [hn] at names
  | some n =>
    simp only [hn, Bool.and_eq_true, beq_iff_eq] at names
    exact ⟨x.2, n, Part.entry_of_mem h listed, hn, names.2⟩

/-- The claims that the RETUNE notices naming a tour hold are those of the reserving ones. -/
theorem Part.countP_reserves {p : Part} (h : (p.units.map (·.2.unit)).Nodup) (k : TourNo) :
    (p.retunesNaming k).countP p.reserves = p.reservedOn k := by
  rw [Part.retunesNaming, List.countP_map, List.countP_filter]
  refine List.countP_congr fun x hx => ?_
  simp only [Function.comp, Part.reserves, Part.entry_of_mem h hx]
  cases hn : x.2.notice with
  | none => simp [hn]
  | some n => simp [hn, and_assoc, and_left_comm]

/-! ### TOUR_CLOSE (R6, R7) -/

/-- A tour as its close leaves it: FREE without claims left, CLOSING with them. -/
def Tour.closed (x : Tour) (m : Nat) : Tour :=
  if m = 0 then Tour.free else { x with state := .closing, sources := [], count := m }

theorem Tour.closed_state_text (x : Tour) (m : Nat) :
    tourStateText (x.closed m).state = txt (if m = 0 then "FREE" else "CLOSING") := by
  unfold Tour.closed; split <;> rfl

/-- The part between the end of a closing tour's notices and the recompute of the streams. -/
def Part.unserved (p : Part) (k : TourNo) : Part :=
  let q := (p.tour k).sources.foldl (fun q x => q.dropSource k x) p
  q.endNotices (q.retunesNaming k)

theorem Part.unserved_noticesEnded {p : Part} (h : (p.units.map (·.2.unit)).Nodup) {k : TourNo}
    (hk : (p.tour k).state ≠ .closing) :
    (p.unserved k).tour k =
        { p.tour k with sources := [], count := (p.tour k).count - p.reservedOn k } ∧
      (∀ j, j ≠ k → (p.unserved k).tour j = p.tour j) ∧
      ∀ u, (p.unserved k).entry u = (p.entry u).map fun e =>
        if (p.retunesNaming k).contains u = true then { e with notice := none } else e := by
  obtain ⟨tour, others, units⟩ := Part.foldl_dropSource_tables k (p.tour k).sources p
  unfold Part.unserved
  generalize (p.tour k).sources.foldl (fun q x => q.dropSource k x) p = q at *
  have entries (u : UnitId) : q.entry u = p.entry u := by simp only [Part.entry, Part.find, units]
  have named : q.retunesNaming k = p.retunesNaming k := by simp only [Part.retunesNaming, units]
  have reserved : q.reservedOn k = p.reservedOn k := by simp only [Part.reservedOn, units]
  have distinct : (q.units.map (·.2.unit)).Nodup := units ▸ h
  have ended := NoticesEnded.endNotices (Part.retunesNaming_nodup distinct k)
    (fun _ => Part.noticeOn_of_retunesNaming distinct) (by rw [tour]; exact hk)
  refine ⟨?_, fun j hj => (ended.others j hj).trans (others j hj), fun u => ?_⟩
  · rw [ended.tour, Part.countP_reserves distinct, reserved, tour]
    simp
  · rw [ended.entry, entries, named]

theorem ReportStep.raise_unless (p : Part) (c : Bool) (src : Source) (k : EventKind) :
    ReportStep p (if c = true then p else p.raise src k) := by
  split
  · exact ReportStep.refl p
  · exact ReportStep.raise p src k

theorem ZoneStep.closeTour (p : Part) (k : TourNo) :
    ZoneStep
      ((p.unserved k).setTour k
        (if ((p.unserved k).tour k).count = 0 then Tour.free else { (p.unserved k).tour k with state := .closing }))
      (p.closeTour k) :=
  (ZoneStep.restream_raise p _ (.tour k) .state).trans
    (ReportStep.raise_unless _ (p.tour k).sources.isEmpty (.tour k) .sources).toZone

/-- The close of a tour: its record, the other tours, and the entries that lose a notice. -/
theorem Part.closeTour_tables {p : Part} (h : (p.units.map (·.2.unit)).Nodup) {k : TourNo}
    (hk : (p.tour k).state ≠ .closing) :
    (p.closeTour k).tour k = (p.tour k).closed ((p.tour k).count - p.reservedOn k) ∧
      (∀ j, j ≠ k → (p.closeTour k).tour j = p.tour j) ∧
      ∀ u, (p.closeTour k).entry u = (p.entry u).map fun e =>
        if (p.retunesNaming k).contains u = true then { e with notice := none } else e := by
  obtain ⟨tour, others, entries⟩ := Part.unserved_noticesEnded h hk
  have step := ZoneStep.closeTour p k
  refine ⟨?_, fun j hj => ?_, fun u => (step.entry_eq u).trans (entries u)⟩
  · rw [step.tour_eq, Part.tour_setTour_same, tour]; rfl
  · rw [step.tour_eq, Part.tour_setTour_other _ _ _ _ hj, others j hj]

theorem AirStep.closeTour (p : Part) (k : TourNo) : AirStep p (p.closeTour k) := by
  refine AirStep.trans (q := p.unserved k) ?_ (AirStep.trans (AirStep.setTour _ _ _) (ZoneStep.closeTour p k).toAir)
  exact AirStep.trans (AirStep.foldl (fun _ _ => AirStep.dropSource _ _ _) _ _) (AirStep.endNotices _ _)

theorem ownTourClose_of_open {p : Part} {k : TourNo} (h : (p.tour k).state.open = true) (nv : Nv) :
    ownTourClose (.val (k.val + 1)) nv p =
      (p.closeTour k, .reply .ok [fld "state" (tourStateText ((p.closeTour k).tour k).state)]) := by
  simp only [ownTourClose, tourField_val]
  cases hs : (p.tour k).state with
  | free | closing => rw [hs] at h; cases h
  | forming | live | paused => rfl

/-- Settles O22: by the three answers of TOUR_CLOSE, the close itself by what it leaves of the tables. -/
theorem tourCloseEndsTheService : Obligations.TourCloseEndsTheService := by
  rintro s tag k _ h ⟨-, -, distinct⟩ rfl
  refine ⟨fun hopen => ?close, fun hclosing => ?closing, fun hfree => ?free⟩
  case close =>
    have hk : (s.part.tour k).state ≠ .closing := fun e => by rw [e] at hopen; cases hopen
    obtain ⟨tour, others, entries⟩ := Part.closeTour_tables distinct hk
    obtain ⟨t, run, answered, part⟩ := exec_answered (i := .tourClose tag (.val (k.val + 1))) h rfl
      (ownTourClose_of_open hopen s.nv)
    rw [tour, Tour.closed_state_text] at answered
    exact ⟨t, run, answered, by rw [part, tour]; rfl, fun j hj => by rw [part, others j hj],
      fun u => by rw [part, entries u], by rw [part]; exact AirStep.closeTour _ _⟩
  case closing => exact exec_answered h rfl (by simp [ownTourClose, hclosing, tourStateText])
  case free => exact exec_answered h rfl (by simp [ownTourClose, hfree, refuse])

end Sys2Proof.Machine
end

section
/-! The records' invariant is not kept by every step: it admits a ready queue that lists an absent bay, one beyond the
rack's bay count (R98), and the evaluation that follows a change of ready_level passes over absent bays (R116). The
refuting state is one the invariant admits, not one a run is shown to reach: an attach empties the bays that become
absent (R104), and the invariant does not say so. -/

namespace Sys2Proof.Machine

/-! ### A ready bay beyond its rack's bay count -/

/-- The listener that the absent bay records. -/
def strandedUnit : UnitId := 0x22#32

/-- Bay 9 of rack 0, beyond the bay count of 8. -/
def strandedBay : BayRef := ⟨0, 8⟩

/-- A bay with the listener charged to level 95, identified, nothing owed. -/
def chargedBay : Bay :=
  { Bay.initial with
    occupant := some ⟨strandedUnit, true⟩, session := .topped, identified := true
    telemetry := some ⟨4000, 0, 200, 95⟩ }

/-- Rack 0 is ONLINE with eight bays and a ready queue that lists its ninth, whose listener is listed DOCKED;
a SET of ready_level to 100 waits. No clause of the invariant says that an absent bay is empty. -/
def strandedReady : State :=
  { State.reset with
    part :=
      { State.reset.part with
        racks := (Vector.replicate 8 (Rack.initial .offline none)).set 0
          { Rack.initial .online none with
            bayCount := some 8, ready := [strandedBay.no]
            bays := (Vector.replicate 24 Bay.initial).set 8 chargedBay }
        units := [(0, { State.reset.part.newEntry strandedUnit .listener with
          bay := some strandedBay, fwState := .complete })]
        store := { State.reset.part.store with loading := false } }
    pending := [.set 1 [(.num .readyLevel, .num 100)]] }

/-- What the SET leaves. -/
def strandedAfterSet : State :=
  State.hostCommand { strandedReady with pending := [] } 1 (txt "SET") (ownSet [(.num .readyLevel, .num 100)])

/-- The step carries out the SET. -/
theorem step_strandedReady : step strandedReady = .next strandedAfterSet := rfl

theorem strandedReady_recordsSound : strandedReady.recordsSound := by
  refine ⟨?_, ?_, ?_, ?_, ?_, ?_, ?_, ?_, ?_, ?_⟩
  · unfold Part.tableSound; decide +kernel
  · unfold Part.docksSound; decide +kernel
  · unfold Part.toursSound; decide +kernel
  · unfold Part.countsSound; decide +kernel
  · unfold Part.claimantsSound; decide +kernel
  · unfold Part.readySound; decide +kernel
  · unfold Part.jobsSound; decide +kernel
  · unfold Part.bindingsSound; decide +kernel
  · unfold Part.issuesSound; decide +kernel
  · intro h; exact absurd h (by decide +kernel)

/-! ### An engine without work leaves the part as it is -/

/-- A fold whose every step leaves the part leaves it. -/
theorem foldl_of_fixed {α : Type} {f : Part → α → Part} {p : Part} (h : ∀ a, f p a = p) :
    ∀ l : List α, l.foldl f p = p
  | [] => rfl
  | a :: l => by rw [List.foldl_cons, h a, foldl_of_fixed h l]

theorem Part.tryWork_of_noWork {p : Part} (h : p.noWork) (b : BayRef) : p.tryWork b = p := by
  have idle : p.nextWork b = none := by
    obtain ⟨identify, untune, refresh⟩ := h b
    simp [Part.nextWork, identify, untune, refresh]
  unfold Part.tryWork
  split
  · simp [idle]
  · rfl

theorem Part.serveBays_of_noWork {p : Part} (h : p.noWork) : p.serveBays = p :=
  foldl_of_fixed (Part.tryWork_of_noWork h) allBays

theorem Part.serveChannel_of_idle (nv : Nv) {p : Part} {c : ChannelNo} (h : (p.channel c).state = .idle) :
    p.serveChannel nv c = p := by
  simp [Part.serveChannel, Part.freeChannel, h]

/-- Without a job and without a need no part of the engine has anything to serve. -/
theorem Part.serveEngine_of_idle (nv : Nv) {p : Part} (hw : p.noWork) (hq : p.queue = [])
    (hc : ∀ c, (p.channel c).state = .idle) : p.serveEngine nv = p := by
  have served : allChannels.foldl (fun q c => q.serveChannel nv c) p = p :=
    foldl_of_fixed (fun c => Part.serveChannel_of_idle nv (hc c)) allChannels
  have dispatched : p.dispatch = p :=
    foldl_of_fixed (fun c => by simp [Part.dispatchChannel, firstToDispatch, hq]) allChannels
  have judged : p.judgeYield = p := by simp [Part.judgeYield, Part.yieldNeeded, hq]
  simp only [Part.serveEngine, served, dispatched, judged, Part.serveBays_of_noWork hw]

/-- The part as the SET leaves it before the event ends. -/
def strandedSet : Part := strandedReady.part.setParams [(.num .readyLevel, .num 100)]

theorem strandedSet_noWork : strandedSet.noWork := by
  have h : ∀ (r : RackNo) (n : BayNo), (strandedSet.bay ⟨r, n⟩).identifyOwed = false ∧
      (strandedSet.bay ⟨r, n⟩).needUntune = false ∧ (strandedSet.bay ⟨r, n⟩).needRefresh = false := by decide +kernel
  exact fun ⟨r, n⟩ => h r n

theorem strandedAfterSet_part :
    strandedAfterSet.part = strandedSet.refreshDisplays.startRetireSave.busServe := by
  have takes : ({ strandedReady with pending := [] } : State).takes 1 := by decide +kernel
  have owned : ownSet [(.num .readyLevel, .num 100)] strandedReady.nv strandedReady.part =
      (strandedSet.finish strandedReady.nv, .reply .ok []) := by
    have accepted : (strandedReady.part.profile.writeAll [(.num .readyLevel, .num 100)]).ascending = true := by
      decide +kernel
    simp [ownSet, accepted, Part.turnsOffUsed, setValueOk, numRange, strandedSet]
  rw [strandedAfterSet, (State.hostCommand_reply takes _ owned).2, Part.finish, Part.settleEvent,
    Part.serveEngine_of_idle _ strandedSet_noWork (by decide +kernel) (by decide +kernel)]

/-- The evaluation of a changed ready_level passes over absent bays (`Part.onlineBays`): the queue keeps the bay. -/
theorem strandedAfterSet_ready :
    strandedBay.no ∈ (strandedAfterSet.part.rack 0).ready ∧
      strandedAfterSet.part.readyHolds strandedBay = false := by
  rw [strandedAfterSet_part]
  decide +kernel

/-- Refutes O60: a SET that raises ready_level above the level of a ready unit in an absent bay leaves that bay in
its rack's ready queue, though a ready condition fails. -/
theorem not_stepKeepsTheRecordsSound : ¬ Obligations.StepKeepsTheRecordsSound := by
  intro keeps
  have sound : strandedAfterSet.recordsSound := keeps _ _ strandedReady_recordsSound step_strandedReady
  obtain ⟨_, _, _, _, _, ready, _⟩ := sound
  obtain ⟨listed, fails⟩ := strandedAfterSet_ready
  have holds : strandedAfterSet.part.readyHolds strandedBay = true := (ready 0).2 _ listed
  rw [fails] at holds
  cases holds

end Sys2Proof.Machine
end

section
/-! What the operations of the air side leave: the published plan and the sent message of every zone, and of the
unit table everything but one unit's assignment, notice and next sequence. -/

namespace Sys2Proof.Machine

/-! ### What a zone has published -/

/-- The plan in force and the message last sent on the zone's port (R45). -/
def Zone.published (x : Zone) : Option Plan × Option ZoneMessage := (x.plan, x.sent)

section
variable (x : Zone)

@[simp] theorem Zone.placeIn_published (st : CarrStream) (k : Nat) : (x.placeIn st k).published = x.published := rfl

@[simp] theorem Zone.serveList_published (q : List CarrStream) : (Zone.serveList q x).published = x.published := by
  induction q generalizing x with
  | nil => rfl
  | cons st rest ih =>
    rw [Zone.serveList]
    split
    · rw [ih, Zone.placeIn_published]
    · rfl

@[simp] theorem Zone.serveWait_published : x.serveWait.published = x.published := Zone.serveList_published x _

@[simp] theorem Zone.countLinger_published : x.countLinger.published = x.published := by
  simp only [Zone.countLinger]
  split
  · rfl
  · exact Zone.serveWait_published _

@[simp] theorem Zone.serveUplinkList_published (q : List (UnitId × Bool)) :
    (Zone.serveUplinkList q x).published = x.published := by
  induction q generalizing x with
  | nil => rfl
  | cons u rest ih =>
    rw [Zone.serveUplinkList]
    split
    · exact ih _
    · rfl

@[simp] theorem Zone.claimUplink_published (u : UnitId) (floor : Bool) :
    (x.claimUplink u floor).published = x.published := by
  unfold Zone.claimUplink
  split
  · rfl
  · split
    · rfl
    · split <;> rfl

@[simp] theorem Zone.releaseUplink_published (u : UnitId) : (x.releaseUplink u).published = x.published := by
  unfold Zone.releaseUplink
  split
  · exact Zone.serveUplinkList_published _ _
  · rfl

@[simp] theorem Zone.placeNotice_published (u : UnitId) : (x.placeNotice u).published = x.published := by
  unfold Zone.placeNotice
  split <;> rfl

@[simp] theorem Zone.unplaceNotices_published (us : List UnitId) :
    (x.unplaceNotices us).published = x.published := by
  simp only [Zone.unplaceNotices]
  split <;> rfl

end

/-! ### Operations of the zones leave what every zone has published -/

/-- What each zone has published, zones ascending. -/
def Part.published (p : Part) : Vector (Option Plan × Option ZoneMessage) 8 := p.zones.map Zone.published

theorem Part.published_zone (p : Part) (z : ZoneNo) : (p.zone z).published = p.published[z] := by
  simp [Part.published, Part.zone]

/-- Equal publications, read off one zone. -/
theorem Part.zone_of_published {p q : Part} (h : q.published = p.published) (z : ZoneNo) :
    (q.zone z).plan = (p.zone z).plan ∧ (q.zone z).sent = (p.zone z).sent := by
  have same : (q.zone z).published = (p.zone z).published := by rw [Part.published_zone, h, ← Part.published_zone]
  exact ⟨congrArg Prod.fst same, congrArg Prod.snd same⟩

theorem Part.setZone_published (p : Part) (z : ZoneNo) {x : Zone} (h : x.published = (p.zone z).published) :
    (p.setZone z x).published = p.published := by
  have same : (p.zones.map Zone.published)[z] = x.published := by rw [h, Part.published_zone]; rfl
  rw [Part.published, Part.setZone, Vector.map_set, ← same]
  exact Vector.set_getElem_self _

@[simp] theorem Part.modZone_published (p : Part) (z : ZoneNo) {f : Zone → Zone}
    (h : ∀ x, (f x).published = x.published) : (p.modZone z f).published = p.published :=
  Part.setZone_published p z (h _)

theorem ReportStep.published_eq {p q : Part} (h : ReportStep p q) : q.published = p.published := by rw [h]; rfl

/-- A fold of operations that leave the publications leaves them. -/
theorem Part.foldl_published {α : Type} {f : Part → α → Part} (h : ∀ q a, (f q a).published = q.published)
    (l : List α) (p : Part) : (l.foldl f p).published = p.published :=
  foldl_step (R := fun p q => q.published = p.published) (fun _ => rfl) (fun h k => k.trans h) h l p

section
variable (p : Part)

@[simp] theorem Part.raise_published (src : Source) (k : EventKind) : (p.raise src k).published = p.published :=
  (ReportStep.raise p src k).published_eq

@[simp] theorem Part.createCarriage_published (z : ZoneNo) (st : CarrStream) (n : Nat) :
    (p.createCarriage z st n).published = p.published := by
  simp only [Part.createCarriage]
  split
  · exact Part.setZone_published _ _ rfl
  · exact (ReportStep.noteCrowded _ _ _).published_eq.trans (Part.setZone_published _ _ rfl)

@[simp] theorem Part.addListener_published (z : ZoneNo) (t : Tune) : (p.addListener z t).published = p.published := by
  unfold Part.addListener
  split
  · rfl
  · split
    · exact Part.modZone_published _ _ fun _ => rfl
    · simp

@[simp] theorem Part.removeListener_published (z : ZoneNo) (t : Tune) :
    (p.removeListener z t).published = p.published := by
  unfold Part.removeListener
  split
  · rfl
  · split
    · rfl
    · split
      · rfl
      · split
        · exact Part.modZone_published _ _ fun _ => rfl
        · split <;> exact Part.modZone_published _ _ fun _ => rfl

@[simp] theorem Part.moveListener_published (z : ZoneNo) (old new : Option Tune) :
    (p.moveListener z old new).published = p.published := by
  unfold Part.moveListener
  split
  · rfl
  · cases old <;> cases new <;> simp

@[simp] theorem Part.claimUplink_published (z : ZoneNo) (u : UnitId) (floor : Bool) :
    (p.claimUplink z u floor).published = p.published := by
  unfold Part.claimUplink
  split <;> simp

@[simp] theorem Part.releaseUplink_published (z : ZoneNo) (u : UnitId) :
    (p.releaseUplink z u).published = p.published := by
  unfold Part.releaseUplink
  split <;> simp

@[simp] theorem Part.handSets_published : p.handSets.published = p.published := by
  simp only [Part.handSets, Part.published, Vector.map_map]
  rfl

@[simp] theorem Part.restream_published (before : Part) : (before.restream p).published = p.published := by
  unfold Part.restream
  rw [Part.handSets_published]
  refine Part.foldl_published (fun q x => ?_) _ _
  split <;> simp

@[simp] theorem Part.placeNoticeIn_published (u : UnitId) (zs : List ZoneNo) :
    (p.placeNoticeIn u zs).published = p.published :=
  Part.foldl_published (fun _ _ => by simp) _ _

@[simp] theorem Part.unplaceNoticesIn_published (us : List UnitId) (zs : List ZoneNo) :
    (p.unplaceNoticesIn us zs).published = p.published :=
  Part.foldl_published (fun _ _ => by simp) _ _

@[simp] theorem Part.rehomeNotice_published (u : UnitId) (old new : List ZoneNo) :
    (p.rehomeNotice u old new).published = p.published := by
  unfold Part.rehomeNotice
  split <;> simp

@[simp] theorem Part.leaveZone_published (e : Entry) (z : ZoneNo) : (p.leaveZone e z).published = p.published := by
  unfold Part.leaveZone
  split <;> simp

@[simp] theorem Part.enterZone_published (e : Entry) (z : ZoneNo) : (p.enterZone e z).published = p.published := by
  unfold Part.enterZone
  split
  · simp
  · split <;> simp

end

/-! ### The unit table but for one unit's assignment, notice and next sequence -/

/-- An entry without what a change of its assignment or its notice touches. -/
def Entry.still (e : Entry) : Entry := { e with assignment := none, notice := none, nextSeq := 0 }

/-- A place of the table, without what such a change of this unit touches. -/
def stillAt (u : UnitId) (x : Nat × Entry) : Nat × Entry := if x.2.unit = u then (x.1, x.2.still) else x

theorem Part.find_modEntry (p : Part) (u v : UnitId) {f : Entry → Entry} (hf : ∀ e, (f e).unit = e.unit) :
    (p.modEntry u f).find v = (p.find v).map fun x => if v = u then (x.1, f x.2) else x := by
  have key : (fun x : Nat × Entry => x.2.unit == v) ∘ (fun x => if x.2.unit = u then (x.1, f x.2) else x) =
      fun x => x.2.unit == v := by
    funext x
    simp only [Function.comp]
    split <;> simp [hf]
  simp only [Part.find, Part.modEntry, List.find?_map, key]
  refine Option.map_congr fun x hx => ?_
  have hv : x.2.unit = v := by simpa using List.find?_some hx
  simp only [hv]

theorem Part.find_map_stillAt (p : Part) (u v : UnitId) :
    (p.units.map (stillAt u)).find? (·.2.unit == v) = (p.find v).map (stillAt u) := by
  have h := p.find_modEntry u v (f := Entry.still) fun _ => rfl
  refine h.trans (Option.map_congr fun x hx => ?_)
  have hv : x.2.unit = v := by simpa using List.find?_some hx
  simp [stillAt, hv]

section
variable {p q : Part} {u v : UnitId} (h : q.units.map (stillAt u) = p.units.map (stillAt u))
include h

/-- Every other unit keeps its place and its entry. -/
theorem Part.find_of_stillAt (hv : v ≠ u) : q.find v = p.find v := by
  have other (r : Part) : (r.find v).map (stillAt u) = r.find v := by
    refine (Option.map_congr fun x hx => ?_).trans Option.map_id'
    have : x.2.unit = v := by simpa using List.find?_some hx
    simp [stillAt, this, hv]
  rw [← other q, ← other p, ← Part.find_map_stillAt, ← Part.find_map_stillAt, h]

theorem Part.entry_of_stillAt (hv : v ≠ u) : q.entry v = p.entry v :=
  congrArg (Option.map fun x : Nat × Entry => x.2) (Part.find_of_stillAt h hv)

/-- The unit itself keeps its place, and its entry all but the assignment, the notice and the next sequence. -/
theorem Part.find_same_of_stillAt {i : Nat} {e : Entry} (he : p.find u = some (i, e)) :
    ∃ d, q.find u = some (i, d) ∧ d.still = e.still := by
  have same : (q.find u).map (stillAt u) = (p.find u).map (stillAt u) := by
    rw [← Part.find_map_stillAt, ← Part.find_map_stillAt, h]
  rw [he, Option.map_some, Option.map_eq_some_iff] at same
  obtain ⟨⟨j, d⟩, hd, eq⟩ := same
  have du : d.unit = u := by simpa using List.find?_some hd
  have eu : e.unit = u := by simpa using List.find?_some he
  simp only [stillAt, du, eu, if_true, Prod.mk.injEq] at eq
  exact ⟨d, eq.1 ▸ hd, eq.2⟩

theorem Part.entry_same_of_stillAt {e : Entry} (he : p.entry u = some e) :
    ∃ d, q.entry u = some d ∧ d.still = e.still := by
  obtain ⟨⟨i, _⟩, found, rfl⟩ := Option.map_eq_some_iff.mp he
  obtain ⟨d, hd, same⟩ := Part.find_same_of_stillAt h found
  exact ⟨d, by rw [Part.entry, hd]; rfl, same⟩

/-- Without the unit's own places the tables are equal. -/
theorem Part.filter_of_stillAt : q.units.filter (·.2.unit != u) = p.units.filter (·.2.unit != u) := by
  have others (l : List (Nat × Entry)) : (l.map (stillAt u)).filter (·.2.unit != u) = l.filter (·.2.unit != u) := by
    induction l with
    | nil => rfl
    | cons x l ih => by_cases hx : x.2.unit = u <;> simp [stillAt, Entry.still, hx, ih]
  rw [← others, h, others]

end

end Sys2Proof.Machine
end

section
/-! The operations on one unit's assignment and notice: what each leaves, and the entry each makes. -/

namespace Sys2Proof.Machine

/-! ### What they leave -/

/-- From `p` to `q` the unit table changes in nothing but the assignment, the notice and the next sequence of `u`,
and every zone keeps what it has published. -/
structure Retunes (u : UnitId) (p q : Part) : Prop where
  table : q.units.map (stillAt u) = p.units.map (stillAt u)
  published : q.published = p.published

/-- The claim of a reserving notice (R73). -/
def Part.reserveFor (p : Part) (t : Option Tune) (r : Bool) : Part :=
  match t, r with
  | some t, true => p.takeClaim t.tour
  | _, _ => p

/-- The notice that a raise leaves pending (R73). -/
def Part.newNotice (p : Part) (e : Entry) (k : NoticeKind) (t : Option Tune) (r : Bool) : Notice :=
  ⟨k, t, r, e.nextSeq, p.now + 1000 * p.profile.noticeLife, p.now⟩

/-- The last steps of a raise: the notice joins its entry and the queues of its homes (R73, R74). -/
def Part.pend (p : Part) (u : UnitId) (k : NoticeKind) (t : Option Tune) (r : Bool) : Part :=
  match p.entry u with
  | none => p
  | some e =>
    (p.modEntry u fun d => { d with notice := some (p.newNotice e k t r), nextSeq := d.nextSeq + 1 }).placeNoticeIn u
      (p.homes e.zone)

/-- The steps of a raise: the pending notice ends, the claim, the new notice. -/
theorem Part.raiseNotice_eq (p : Part) (u : UnitId) (k : NoticeKind) (t : Option Tune) (r : Bool) :
    p.raiseNotice u k t r = ((p.endNotice u).reserveFor t r).pend u k t r := by
  cases t <;> cases r <;> rfl

theorem AirStep.reserveFor (p : Part) (t : Option Tune) (r : Bool) : AirStep p (p.reserveFor t r) := by
  cases t <;> cases r <;> rfl

@[simp] theorem Part.reserveFor_units (p : Part) (t : Option Tune) (r : Bool) : (p.reserveFor t r).units = p.units := by
  cases t <;> cases r <;> rfl

theorem ZoneStep.units_eq {p q : Part} (h : ZoneStep p q) : q.units = p.units := by rw [h]

namespace Retunes

theorem refl (u : UnitId) (p : Part) : Retunes u p p := ⟨rfl, rfl⟩

theorem trans {u : UnitId} {p q r : Part} (h : Retunes u p q) (k : Retunes u q r) : Retunes u p r :=
  ⟨k.table.trans h.table, k.published.trans h.published⟩

theorem ofZone {u : UnitId} {p q : Part} (h : ZoneStep p q) (k : q.published = p.published) : Retunes u p q :=
  ⟨by rw [h.units_eq], k⟩

theorem ofReport {u : UnitId} {p q : Part} (h : ReportStep p q) : Retunes u p q := ofZone h.toZone h.published_eq

theorem modEntry (p : Part) (u : UnitId) {f : Entry → Entry} (h : ∀ e, (f e).still = e.still) :
    Retunes u p (p.modEntry u f) := by
  refine ⟨?_, rfl⟩
  rw [Part.modEntry, List.map_map]
  refine List.map_congr_left fun x _ => ?_
  have unit : (f x.2).unit = x.2.unit := show (f x.2).still.unit = x.2.unit by rw [h]; rfl
  by_cases hx : x.2.unit = u <;> simp [stillAt, hx, unit, h]

theorem setTour (u : UnitId) (p : Part) (t : TourNo) (x : Tour) : Retunes u p (p.setTour t x) := ⟨rfl, rfl⟩

theorem releaseClaim (u : UnitId) (p : Part) (t : TourNo) : Retunes u p (p.releaseClaim t) := by
  simp only [Part.releaseClaim]
  split
  · exact (setTour u p t _).trans ((ofReport (ReportStep.raise _ _ _)).trans
      (ofZone (ZoneStep.handSets _) (Part.handSets_published _)))
  · exact setTour u p t _

theorem dropSource (u : UnitId) (p : Part) (t : TourNo) (x : LangNo × UnitId) : Retunes u p (p.dropSource t x) := by
  have discard (q : Part) : Retunes u q { q with frames := q.frames.discard ⟨t, x.1⟩ } := ⟨rfl, rfl⟩
  simp only [Part.dropSource]
  split
  · exact (setTour u p t _).trans
      ((ofZone (ZoneStep.releaseUplink _ _ _) (Part.releaseUplink_published _ _ _)).trans (discard _))
  · exact (setTour u p t _).trans (discard _)

theorem withdrawSource (u : UnitId) (p : Part) (v : UnitId) : Retunes u p (p.withdrawSource v) := by
  simp only [Part.withdrawSource]
  split
  · exact refl u p
  · next s _ =>
    refine trans ?_ ((ofZone (ZoneStep.restream p _) (Part.restream_published _ p)).trans
      (ofReport (ReportStep.raise _ _ _)))
    refine (dropSource u p s.tour (s.lang, v)).trans ?_
    split
    · exact (setTour u _ _ _).trans (ofReport (ReportStep.raise _ _ _))
    · exact refl u _

theorem clearNotice (p : Part) (b : Bool) (u : UnitId) : Retunes u p (p.clearNotice b u) := by
  simp only [Part.clearNotice]
  split
  · exact refl u p
  · refine (modEntry p u (f := fun e => { e with notice := none }) fun _ => rfl).trans ?_
    split
    · split
      · exact releaseClaim u _ _
      · exact refl u _
    · exact refl u _

theorem endNotice (p : Part) (u : UnitId) : Retunes u p (p.endNotice u) := by
  simp only [Part.endNotice, Part.endNotices]
  split
  · exact refl u p
  · refine trans ?_ (ofZone (ZoneStep.unplaceNoticesIn _ _ _) (Part.unplaceNoticesIn_published _ _ _))
    cases hn : ((p.entry u).bind (·.notice)).isSome <;> simp only [List.filter, hn, List.foldl]
    · exact refl u p
    · exact clearNotice p true u

theorem raiseNotice (p : Part) (u : UnitId) (k : NoticeKind) (t : Option Tune) (r : Bool) :
    Retunes u p (p.raiseNotice u k t r) := by
  have reserved (q : Part) : Retunes u q (q.reserveFor t r) := by
    cases t <;> cases r <;> exact ⟨rfl, rfl⟩
  rw [Part.raiseNotice_eq]
  refine ((endNotice p u).trans (reserved _)).trans ?_
  unfold Part.pend
  split
  · exact refl u _
  · refine trans ?_ (ofZone (ZoneStep.placeNoticeIn _ _ _) (Part.placeNoticeIn_published _ _ _))
    exact modEntry _ u fun _ => rfl

theorem reassign (p : Part) (u : UnitId) (a : Option Tune) : Retunes u p (p.reassign u a) := by
  simp only [Part.reassign]
  split
  · exact refl u p
  · refine (modEntry p u (f := fun e => { e with assignment := a }) fun _ => rfl).trans ?_
    split
    · exact ofZone (ZoneStep.moveListener _ _ _ _) (Part.moveListener_published _ _ _ _)
    · exact refl u _

theorem unassign (p : Part) (u : UnitId) : Retunes u p (p.unassign u) := by
  unfold Part.unassign
  split
  · exact (reassign p u none).trans (releaseClaim u _ _)
  · exact refl u p

theorem strip (p : Part) (u : UnitId) : Retunes u p (p.strip u) :=
  ((unassign p u).trans (endNotice _ u)).trans (withdrawSource u _ u)

theorem takeClaimFor (p : Part) (u : UnitId) (t : Tune) : Retunes u p ((p.takeClaim t.tour).reassign u (some t)) :=
  (setTour u p _ _).trans (reassign _ u _)

theorem ackEffect (p : Part) (u : UnitId) (old : Option Tune) (n : Notice) : Retunes u p (p.ackEffect u old n) := by
  simp only [Part.ackEffect]
  split
  · split
    · split
      · exact (reassign p u _).trans (releaseClaim u _ _)
      · exact reassign p u _
    · split
      · split
        · exact reassign p u _
        · split
          · exact (takeClaimFor p u _).trans (releaseClaim u _ _)
          · exact unassign p u
      · split
        · exact takeClaimFor p u _
        · exact refl u p
  · exact unassign p u
  · exact refl u p

theorem acknowledge (p : Part) (u : UnitId) (n : Notice) : Retunes u p (p.acknowledge u n) :=
  (((clearNotice p false u).trans (ackEffect _ u _ n)).trans
    (ofZone (ZoneStep.unplaceNoticesIn _ _ _) (Part.unplaceNoticesIn_published _ _ _))).trans
      (ofReport (ReportStep.raiseUnit _ _ _ _))

theorem takeTune (p : Part) (u : UnitId) (t : Option Tune) : Retunes u p (p.takeTune u t) := by
  simp only [Part.takeTune]
  split
  · exact refl u p
  · split
    · exact refl u p
    · split
      · split
        · exact refl u p
        · split
          · exact (takeClaimFor p u _).trans (ofReport (ReportStep.raiseUnit _ _ _ _))
          · exact refl u p
      · split
        · exact refl u p
        · split
          · exact raiseNotice p u _ _ _
          · exact refl u p
      · exact refl u p

theorem takeContents (p : Part) (u : UnitId) (st : StatusRecord) : Retunes u p (p.takeContents u st) := by
  unfold Part.takeContents
  split
  · split
    · exact acknowledge p u _
    · exact takeTune p u _
  · exact takeTune p u _

end Retunes

/-! ### What they make of the unit's entry -/

/-- A release of a claim: the tour's record, then a step of the zones (R7, R16). -/
theorem ZoneStep.releaseClaim (p : Part) (t : TourNo) :
    ZoneStep
      (p.setTour t
        (if (p.tour t).state = .closing ∧ (p.tour t).count ≤ 1 then Tour.free
         else { p.tour t with count := (p.tour t).count - 1 }))
      (p.releaseClaim t) := by
  simp only [Part.releaseClaim]
  split
  · exact (ReportStep.raise _ _ _).toZone.trans (ZoneStep.handSets _)
  · exact ZoneStep.refl _

@[simp] theorem Part.releaseClaim_entry (p : Part) (t : TourNo) (u : UnitId) :
    (p.releaseClaim t).entry u = p.entry u := (ZoneStep.releaseClaim p t).entry_eq u

@[simp] theorem Part.takeClaim_entry (p : Part) (t : TourNo) (u : UnitId) : (p.takeClaim t).entry u = p.entry u := rfl

/-- The unit's own entry after a change of it. -/
theorem Part.entry_modEntry_same (p : Part) (u : UnitId) {f : Entry → Entry} (hf : ∀ e, (f e).unit = e.unit) :
    (p.modEntry u f).entry u = (p.entry u).map f := by
  rw [Part.entry_modEntry p u u hf]
  simp

@[simp] theorem Part.reassign_entry (p : Part) (u : UnitId) (a : Option Tune) :
    (p.reassign u a).entry u = (p.entry u).map fun e => { e with assignment := a } := by
  simp only [Part.reassign]
  split
  · next absent => rw [absent]; rfl
  · have changed := p.entry_modEntry_same u (f := fun e => { e with assignment := a }) fun _ => rfl
    split
    · exact ((ZoneStep.moveListener _ _ _ _).entry_eq u).trans changed
    · exact changed

@[simp] theorem Part.unassign_entry (p : Part) (u : UnitId) :
    (p.unassign u).entry u = (p.entry u).map fun e => { e with assignment := none } := by
  unfold Part.unassign
  split
  · simp
  · next free =>
    cases he : p.entry u with
    | none => rfl
    | some e =>
      rw [he, Option.bind_some] at free
      rw [Option.map_some, ← free]

@[simp] theorem Part.clearNotice_entry (p : Part) (b : Bool) (u : UnitId) :
    (p.clearNotice b u).entry u = (p.entry u).map fun e => { e with notice := none } := by
  simp only [Part.clearNotice]
  split
  · next free =>
    cases he : p.entry u with
    | none => rfl
    | some e =>
      rw [he, Option.bind_some] at free
      rw [Option.map_some, ← free]
  · have cleared := p.entry_modEntry_same u (f := fun e => { e with notice := none }) fun _ => rfl
    split
    · split <;> simpa using cleared
    · exact cleared

/-- The end of a pending notice is the end of that one, and leaves the queues. -/
theorem Part.endNotice_pending {p : Part} {u : UnitId} (h : ((p.entry u).bind (·.notice)).isSome = true) :
    p.endNotice u = (p.clearNotice true u).unplaceNoticesIn [u] allZones := by
  simp [Part.endNotice, Part.endNotices, h]

/-- Without a pending notice none ends. -/
theorem Part.endNotice_free {p : Part} {u : UnitId} (h : (p.entry u).bind (·.notice) = none) : p.endNotice u = p := by
  simp [Part.endNotice, Part.endNotices, h]

@[simp] theorem Part.endNotice_entry (p : Part) (u : UnitId) :
    (p.endNotice u).entry u = (p.entry u).map fun e => { e with notice := none } := by
  cases hn : (p.entry u).bind (·.notice) with
  | some n =>
    rw [Part.endNotice_pending (by simp [hn])]
    exact ((ZoneStep.unplaceNoticesIn _ _ _).entry_eq u).trans (Part.clearNotice_entry p true u)
  | none =>
    rw [Part.endNotice_free hn]
    rw [← Part.clearNotice_entry p true u]
    simp [Part.clearNotice, hn]

theorem AirStep.newNotice_eq {p q : Part} (h : AirStep p q) (e : Entry) (k : NoticeKind) (t : Option Tune) (r : Bool) :
    q.newNotice e k t r = p.newNotice e k t r := by
  rw [h]; rfl

theorem Part.pend_entry {p : Part} {u : UnitId} {e : Entry} (he : p.entry u = some e) (k : NoticeKind)
    (t : Option Tune) (r : Bool) :
    (p.pend u k t r).entry u = some { e with notice := some (p.newNotice e k t r), nextSeq := e.nextSeq + 1 } := by
  simp only [Part.pend, he]
  refine ((ZoneStep.placeNoticeIn _ _ _).entry_eq u).trans ?_
  rw [p.entry_modEntry_same u
    (f := fun d => { d with notice := some (p.newNotice e k t r), nextSeq := d.nextSeq + 1 }) fun _ => rfl, he]
  rfl

/-- The entry that a raise leaves: whatever was pending, the notice is the new one, of the entry's next sequence. -/
theorem Part.raiseNotice_entry {p : Part} {u : UnitId} {e : Entry} (he : p.entry u = some e) (k : NoticeKind)
    (t : Option Tune) (r : Bool) :
    (p.raiseNotice u k t r).entry u =
      some { e with notice := some (p.newNotice e k t r), nextSeq := e.nextSeq + 1 } := by
  have air : AirStep p ((p.endNotice u).reserveFor t r) := (AirStep.endNotice p u).trans (AirStep.reserveFor _ t r)
  have ended : ((p.endNotice u).reserveFor t r).entry u = some { e with notice := none } := by
    have kept : ((p.endNotice u).reserveFor t r).entry u = (p.endNotice u).entry u := by
      simp only [Part.entry, Part.find, Part.reserveFor_units]
    rw [kept, Part.endNotice_entry, he]
    rfl
  rw [Part.raiseNotice_eq, Part.pend_entry ended, air.newNotice_eq]
  rfl

end Sys2Proof.Machine
end

section
/-! UNIT_FORGET, UNIT_UNASSIGN and the timers of an entry. -/

namespace Sys2Proof.Machine

/-! ### UNIT_FORGET and UNIT_UNASSIGN (R41, R42) -/

/-- Settles O25: what is taken from the entry before its place falls free changes the unit's own places alone. -/
theorem unitForgetFreesThePlace : Obligations.UnitForgetFreesThePlace := by
  intro s tag u i e h hu he hstate
  obtain ⟨t, run, answered, part⟩ := exec_answered (i := .unitForget tag (.val u)) h rfl
    (show ownUnitForget (.val u) s.nv s.part =
        ((s.part.strip u).removeEntry u, .reply .ok [fld "index" (numText i)]) by
      simp [ownUnitForget, hu, he, hstate])
  refine ⟨t, run, answered, ?_, ?_⟩
  · exact part ▸ Part.filter_of_stillAt (Retunes.strip s.part u).table
  · exact part ▸ (AirStep.strip _ _).trans (AirStep.removeEntry _ _)

/-- Settles O26: the removal and, for an entry ON_AIR, the raise each change this one entry in the fields named. -/
theorem unitUnassignRemovesTheAssignment : Obligations.UnitUnassignRemovesTheAssignment := by
  intro s tag u e h hu he hassigned
  have assigned : e.assignment.isNone = false := by rw [← Option.not_isSome, hassigned]; rfl
  have removed : (s.part.unassign u).entry u = some { e with assignment := none } := by
    rw [Part.unassign_entry, he]; rfl
  have retunes := Retunes.unassign s.part u
  by_cases hair : e.state = .onAir
  · obtain ⟨t, run, answered, part⟩ := exec_answered (i := .unitUnassign tag (.val u)) h rfl
      (show ownUnitUnassign (.val u) s.nv s.part =
          ((s.part.unassign u).raiseNotice u .untune none false, .reply .ok []) by
        simp [ownUnitUnassign, hu, he, assigned, hair])
    have entry := Part.raiseNotice_entry removed .untune none false
    rw [(AirStep.unassign s.part u).newNotice_eq, ← part] at entry
    refine ⟨t, _, run, answered, entry, rfl, rfl, rfl, fun _ => ⟨rfl, rfl⟩, fun other => absurd hair other, ?_, ?_⟩
    · exact fun v hv => part ▸ Part.entry_of_stillAt (retunes.trans (Retunes.raiseNotice _ _ _ _ _)).table hv
    · exact part ▸ (AirStep.unassign _ _).trans (AirStep.raiseNotice _ _ _ _ _)
  · obtain ⟨t, run, answered, part⟩ := exec_answered (i := .unitUnassign tag (.val u)) h rfl
      (show ownUnitUnassign (.val u) s.nv s.part = (s.part.unassign u, .reply .ok []) by
        simp [ownUnitUnassign, hu, he, assigned, hair])
    refine ⟨t, { e with assignment := none }, run, answered, part ▸ removed, rfl, rfl, rfl,
      fun air => absurd air hair, fun _ => ⟨rfl, rfl⟩, ?_, ?_⟩
    · exact fun v hv => part ▸ Part.entry_of_stillAt retunes.table hv
    · exact part ▸ AirStep.unassign _ _

/-! ### SILENCE_EXPIRY and NOTICE_LIFE_EXPIRY (R32, R81) -/

/-- An entry as the expiry of its silence timer leaves it. -/
def Entry.silenced (e : Entry) : Entry := { e with state := .silent, zone := none, silence := none }

theorem ZoneStep.silenceExpiry {p : Part} {u : UnitId} {e : Entry} {d : Millis} (he : p.entry u = some e)
    (hd : e.silence = some d) : ZoneStep ((p.reach d).modEntry u Entry.silenced) (p.silenceExpiry u) := by
  simp only [Part.silenceExpiry, he, hd]
  refine ZoneStep.trans ?_ (ReportStep.raiseUnit _ _ _ _).toZone
  split <;> split
  · exact (ZoneStep.leaveZone _ _ _).trans (ZoneStep.rehomeNotice _ _ _ _)
  · exact ZoneStep.rehomeNotice _ _ _ _
  · exact ZoneStep.leaveZone _ _ _
  · exact ZoneStep.refl _

/-- An event that changes the part alone, while no load is in progress. -/
theorem exec_partEvent {i : Instr} {s : State} {f : Nv → Part → Part} (h : s.deaf = false)
    (row : exec i s = .next (s.partEvent f)) :
    ∃ t, exec i s = .next t ∧ s.after t ∧ ReportStep (f s.nv s.part) t.part :=
  ⟨_, row, State.partEvent_after s f, State.partEvent_part h f⟩

/-- The end of a reserving notice releases its claim. -/
theorem Part.clearNotice_reserving {p : Part} {u : UnitId} {n : Notice} {x : Tune}
    (hn : (p.entry u).bind (·.notice) = some n) (hr : n.reserving = true) (hx : n.target = some x) :
    p.clearNotice true u = (p.modEntry u fun e => { e with notice := none }).releaseClaim x.tour := by
  simp [Part.clearNotice, hn, hr, hx]

theorem Part.clearNotice_plain {p : Part} {u : UnitId} {n : Notice} (hn : (p.entry u).bind (·.notice) = some n)
    (hr : n.reserving = false) : p.clearNotice true u = p.modEntry u fun e => { e with notice := none } := by
  simp [Part.clearNotice, hn, hr]

/-- The expiry of a notice's life: the end of the notice apart from its places, then a step of the zones. -/
theorem ZoneStep.noticeExpiry {p : Part} {u : UnitId} {n : Notice} (hn : (p.entry u).bind (·.notice) = some n) :
    ZoneStep ((p.reach n.deadline).clearNotice true u) (p.noticeExpiry u) := by
  have pending : (((p.reach n.deadline).entry u).bind (·.notice)).isSome = true :=
    show ((p.entry u).bind (·.notice)).isSome = true by rw [hn]; rfl
  simp only [Part.noticeExpiry, hn, Part.endNotice_pending pending]
  exact (ZoneStep.unplaceNoticesIn _ _ _).trans (ReportStep.raiseUnit _ _ _ _).toZone

/-- Settles O31: each expiry is a change of the one entry, for a notice with the release of its claim, and then a
step of the zones. -/
theorem silenceAndNoticeLifeExpiriesEndTheirTimes : Obligations.SilenceAndNoticeLifeExpiriesEndTheirTimes := by
  refine ⟨fun s u e d h he hd => ?silence, fun s u e n h he hn => ?life⟩
  case silence =>
    obtain ⟨t, run, after, reported⟩ := exec_partEvent (i := .silenceExpiry u) h rfl
    have step : ZoneStep ((s.part.reach d).modEntry u Entry.silenced) t.part :=
      (ZoneStep.silenceExpiry he hd).trans reported.toZone
    have entry (v : UnitId) : t.part.entry v = (s.part.entry v).map fun e => if v = u then e.silenced else e :=
      (step.entry_eq v).trans ((s.part.reach d).entry_modEntry u v fun _ => rfl)
    refine ⟨t, run, after, ?_, fun v hv => ?_, ?_⟩
    · rw [entry, he, Option.map_some, if_pos rfl]; rfl
    · simp [entry, hv]
    · rw [step.units_eq]; exact step
  case life =>
    obtain ⟨t, run, after, reported⟩ := exec_partEvent (i := .noticeLifeExpiry u) h rfl
    have pending : (s.part.entry u).bind (·.notice) = some n := by rw [he]; exact hn
    have pending' : ((s.part.reach n.deadline).entry u).bind (·.notice) = some n := pending
    have step : ZoneStep ((s.part.reach n.deadline).clearNotice true u) t.part :=
      (ZoneStep.noticeExpiry pending).trans reported.toZone
    have retunes := Retunes.clearNotice (s.part.reach n.deadline) true u
    refine ⟨t, run, after, ?_, fun v hv => ?_, fun x hr hx => ?_, fun hr => ?_, ?_⟩
    · rw [step.entry_eq, Part.clearNotice_entry]
      exact congrArg (Option.map _) he
    · exact (step.entry_eq v).trans (Part.entry_of_stillAt retunes.table hv)
    · rw [Part.clearNotice_reserving pending' hr hx] at step
      have released := (ZoneStep.releaseClaim _ x.tour).trans step
      refine ⟨(released.tour_eq _).trans (Part.tour_setTour_same _ _ _), fun k hk => ?_⟩
      exact (released.tour_eq k).trans (Part.tour_setTour_other _ _ _ _ hk)
    · rw [Part.clearNotice_plain pending' hr] at step
      rw [step]; rfl
    · exact (AirStep.clearNotice (s.part.reach n.deadline) true u).trans step.toAir

end Sys2Proof.Machine
end

section
/-! The boundary of a zone: filing, the house advance, the frames chosen, the plan published and the lingers. -/

namespace Sys2Proof.Machine

/-! ### Filing a voice packet (R61) -/

theorem FrameStore.frame_file_same (f : FrameStore) (t : Tune) (a : Audio) :
    (f.file t a).frame t = some ⟨t, a, f.next⟩ := by
  have gone : (f.frames.filter (·.stream != t)).find? (·.stream == t) = none :=
    List.find?_eq_none.mpr fun x hx => by simpa using (List.mem_filter.mp hx).2
  simp [FrameStore.frame, FrameStore.file, List.find?_append, gone]

theorem FrameStore.frame_file_other (f : FrameStore) {t y : Tune} (a : Audio) (h : y ≠ t) :
    (f.file t a).frame y = f.frame y := by
  have kept : (fun x : Frame => decide ((x.stream != t) = true ∧ (x.stream == y) = true)) = fun x => x.stream == y := by
    funext x
    by_cases hx : x.stream = y <;> simp [hx, h]
  have stays : (f.frames.filter (·.stream != t)).find? (·.stream == y) = f.frames.find? (·.stream == y) := by
    rw [List.find?_filter, kept]
  simp [FrameStore.frame, FrameStore.file, List.find?_append, stays, Ne.symm h]

/-- A packet of a slot of the plan in force, whose unit is the source of a stream that sounds. -/
theorem Part.filePacket_sounding {p : Part} {z : ZoneNo} {v : VoicePacket} {plan : Plan} {u : UnitId} {t : Tune}
    (hplan : (p.zone z).plan = some plan)
    (hslot : plan.beacon.uplinkMap.find? (·.1 == v.slot) = some (v.slot, u)) (hsource : p.sourceOf u = some t)
    (hsound : (p.zone z).soundingSet.contains t = true) :
    p.filePacket z v = { p with frames := p.frames.file t v.audio } := by
  simp [Part.filePacket, hplan, hslot, hsource, List.contains_iff_mem.mp hsound]

/-! ### The house advance (R93) -/

theorem ReportStep.houseAdvance (p : Part) :
    ReportStep { p with house := { p.house with tracks := p.house.tracks.map Track.advance, advanceDue := false } }
      p.houseAdvance := by
  simp only [Part.houseAdvance]
  split
  · exact ReportStep.raise _ _ _
  · exact ReportStep.refl _

/-! ### The frame of a placed tour carriage (R62) -/

theorem Part.chooseFrame_voice {p : Part} {x : Zone} {c : Carriage} {t : Tune} {f : Frame} (hc : c.stream = .tour t)
    (hsound : x.soundingSet.contains t = true) (hf : p.frames.frame t = some f)
    (fresh : c.lastFrame ≠ some f.serial.toNat) :
    p.chooseFrame x c = (.voice f.audio, some f.serial.toNat) := by
  simp [Part.chooseFrame, hc, List.contains_iff_mem.mp hsound, hf, fresh]

theorem Part.chooseFrame_silence {p : Part} {x : Zone} {c : Carriage} {t : Tune} (hc : c.stream = .tour t)
    (h : x.soundingSet.contains t = false ∨ p.frames.frame t = none ∨
      ∃ f, p.frames.frame t = some f ∧ c.lastFrame = some f.serial.toNat) :
    p.chooseFrame x c = (.silence, c.lastFrame) := by
  simp only [Part.chooseFrame, hc]
  obtain silent | noFrame | ⟨f, hf, carried⟩ := h
  · rw [silent]; rfl
  · simp [noFrame]
  · simp [hf, carried]

/-! ### Carriages by their streams -/

/-- A change of carriages that keeps their streams, read at one stream. -/
theorem find?_stream_map {g : Carriage → Carriage} (hg : ∀ c, (g c).stream = c.stream) (cs : List Carriage)
    (st : CarrStream) :
    (cs.map g).find? (·.stream == st) = (cs.find? (·.stream == st)).map g := by
  have key : (fun c : Carriage => c.stream == st) ∘ g = fun c => c.stream == st := by
    funext c
    simp [hg]
  rw [List.find?_map, key]

/-- Where no stream has two carriages, a removal of carriages is read at one stream. -/
theorem find?_stream_filter {cs : List Carriage} (h : (cs.map (·.stream)).Nodup) (keep : Carriage → Bool)
    (st : CarrStream) :
    (cs.filter keep).find? (·.stream == st) = (cs.find? (·.stream == st)).filter keep := by
  induction cs with
  | nil => rfl
  | cons c cs ih =>
    obtain ⟨fresh, distinct⟩ := List.nodup_cons.mp h
    by_cases hc : c.stream = st
    · have gone : (cs.filter keep).find? (·.stream == st) = none := by
        refine List.find?_eq_none.mpr fun d hd eq => fresh ?_
        exact List.mem_map.mpr ⟨d, (List.mem_filter.mp hd).1, (beq_iff_eq.mp eq).trans hc.symm⟩
      by_cases hk : keep c = true <;> simp [hc, hk, gone, Option.filter]
    · by_cases hk : keep c = true <;> simp [hc, hk, ih distinct]

theorem Zone.modCarriage_carriage_other (x : Zone) {a st : CarrStream} {f : Carriage → Carriage}
    (hf : ∀ c, (f c).stream = c.stream) (h : st ≠ a) : (x.modCarriage a f).carriage st = x.carriage st := by
  refine (find?_stream_map (fun c => ?_) x.carriages st).trans ?_
  · split <;> simp [hf]
  · refine (Option.map_congr fun c hc => ?_).trans Option.map_id'
    have : c.stream = st := by simpa using List.find?_some hc
    simp [this, h]

/-- Serving the wait queue leaves the carriage of a stream that does not wait (R58). -/
theorem Zone.serveList_carriage {st : CarrStream} (q : List CarrStream) (x : Zone) (h : st ∉ q) :
    (Zone.serveList q x).carriage st = x.carriage st := by
  induction q generalizing x with
  | nil => rfl
  | cons a rest ih =>
    obtain ⟨other, later⟩ := not_or.mp (mt List.mem_cons.mpr h)
    rw [Zone.serveList]
    split
    · exact (ih _ later).trans (x.modCarriage_carriage_other (fun _ => rfl) other)
    · rfl

/-! ### The countdown of the lingers (R57) -/

/-- A carriage after one countdown. -/
def Carriage.counted (c : Carriage) : Carriage := { c with linger := c.linger.map (· - 1) }

theorem Carriage.counted_of_none {c : Carriage} (h : c.linger = none) : c.counted = c := by
  rw [Carriage.counted, h, Option.map_none, ← h]

theorem Zone.countLinger_carriage {x : Zone} {st : CarrStream} (distinct : (x.carriages.map (·.stream)).Nodup)
    (h : st ∉ x.waitQueue) :
    x.countLinger.carriage st = ((x.carriage st).map Carriage.counted).filter fun c => c.linger != some 0 := by
  have distinct' : ((x.carriages.map Carriage.counted).map (·.stream)).Nodup := by
    rw [List.map_map]; exact distinct
  have kept : ((x.carriages.map Carriage.counted).filter fun c => c.linger != some 0).find? (·.stream == st) =
      ((x.carriage st).map Carriage.counted).filter fun c => c.linger != some 0 := by
    rw [find?_stream_filter distinct', find?_stream_map (g := Carriage.counted) fun _ => rfl]
    rfl
  rw [← kept]
  simp only [Zone.countLinger]
  split
  · rfl
  · exact Zone.serveList_carriage _ _ h

/-! ### The plan published (R51) -/

theorem Part.publish_plan (p : Part) (z : ZoneNo) (n : BitVec 16) :
    ∃ plan, ((p.publish z n).zone z).published = (some plan, some (.cyclePlan plan)) ∧
      plan.audio = (p.zone z).holders.map fun h => (h.1, (p.chooseFrame (p.zone z) h.2).1) := by
  simp only [Part.publish, Part.zone_setZone_same]
  exact ⟨_, rfl, rfl⟩

theorem Part.publish_carriage {p : Part} {z : ZoneNo} {st : CarrStream} {c : Carriage} (n : BitVec 16)
    (hc : (p.zone z).carriage st = some c) :
    ((p.publish z n).zone z).carriage st =
      some (if c.slot.isSome = true then { c with lastFrame := (p.chooseFrame (p.zone z) c).2 } else c) := by
  simp only [Part.publish, Part.zone_setZone_same]
  refine (find?_stream_map (fun d => ?_) _ st).trans (congrArg (Option.map _) hc)
  split <;> rfl

end Sys2Proof.Machine
end

section
/-! Status records: the entries that an acknowledgement, an adoption, a repair and a first hearing make. -/

namespace Sys2Proof.Machine

/-! ### What a step of the zones leaves of the tour table's checks -/

theorem ZoneStep.claimCheck_eq {p q : Part} (h : ZoneStep p q) (k : TourNo) (l : LangNo) :
    q.claimCheck k l = p.claimCheck k l := by rw [h]; rfl

theorem ReportStep.entry_eq {p q : Part} (h : ReportStep p q) (u : UnitId) : q.entry u = p.entry u :=
  h.toZone.entry_eq u

/-! ### Acknowledgement (R79, R80) -/

/-- The assignment an accepted acknowledgement of a notice leaves (R80). -/
def Part.ackAssignment (p : Part) (old : Option Tune) (n : Notice) : Option Tune :=
  match n.kind, n.target with
  | .retune, some t =>
    if n.reserving = true ∨ old.map (·.tour) = some t.tour ∨ p.claimCheck t.tour t.lang = none then some t else none
  | .untune, _ => none
  | _, _ => old

/-- An entry is itself with the assignment it has. -/
theorem Entry.with_assignment {e : Entry} {a : Option Tune} (h : e.assignment = a) :
    { e with assignment := a } = e := by
  rw [← h]

theorem Part.ackEffect_entry {p : Part} {u : UnitId} {e : Entry} (he : p.entry u = some e) (n : Notice) :
    (p.ackEffect u e.assignment n).entry u = some { e with assignment := p.ackAssignment e.assignment n } := by
  cases hk : n.kind with
  | untune => simp [Part.ackEffect, Part.ackAssignment, hk, he]
  | locate => simpa [Part.ackEffect, Part.ackAssignment, hk] using he
  | retune =>
    cases ht : n.target with
    | none => simpa [Part.ackEffect, Part.ackAssignment, hk, ht] using he
    | some t =>
      simp only [Part.ackEffect, Part.ackAssignment, hk, ht]
      by_cases hr : n.reserving = true
      · cases e.assignment <;> simp [hr, he]
      · cases p.claimCheck t.tour t.lang <;> cases ha : e.assignment
        case none.none => simp [hr, he]
        case some.none => simp [hr, he, Entry.with_assignment ha]
        case none.some o => by_cases same : o.tour = t.tour <;> simp [hr, same, he]
        case some.some o => by_cases same : o.tour = t.tour <;> simp [hr, same, he]

theorem Part.acknowledge_entry {p : Part} {u : UnitId} {e : Entry} {n : Notice} (he : p.entry u = some e)
    (hn : e.notice = some n) :
    (p.acknowledge u n).entry u =
      some { e with notice := none, assignment := p.ackAssignment e.assignment n } := by
  have cleared : p.clearNotice false u = p.modEntry u fun e => { e with notice := none } := by
    simp [Part.clearNotice, he, hn]
  have entry : (p.clearNotice false u).entry u = some { e with notice := none } := by
    rw [Part.clearNotice_entry, he]; rfl
  have effect := Part.ackEffect_entry entry n
  simp only [Part.acknowledge]
  rw [ReportStep.entry_eq (ReportStep.raiseUnit _ _ _ _), ZoneStep.entry_eq (ZoneStep.unplaceNoticesIn _ _ _), he]
  refine effect.trans ?_
  rw [cleared]
  rfl

/-! ### Adoption and tune repair (R33, R34) -/

theorem Part.takeTune_kept {p : Part} {u : UnitId} {e : Entry} (he : p.entry u = some e)
    (h : e.cls ≠ .listener ∨ e.notice.isSome = true) (t : Option Tune) : p.takeTune u t = p := by
  simp [Part.takeTune, he, h]

/-- A listener without an assignment and without a notice adopts the tune it reports, where the claim passes. -/
theorem Part.takeTune_unassigned {p : Part} {u : UnitId} {e : Entry} (he : p.entry u = some e)
    (hcls : e.cls = .listener) (hnotice : e.notice = none) (hfree : e.assignment = none) (tune : Option Tune) :
    (p.takeTune u tune).entry u =
      some { e with assignment := tune.filter fun t => !e.retired && (p.claimCheck t.tour t.lang).isNone } := by
  have kept := Entry.with_assignment hfree
  cases tune with
  | none =>
    have idle : p.takeTune u none = p := by simp [Part.takeTune, he, hfree]
    rw [idle, Option.filter_none, kept, he]
  | some t =>
    by_cases adopts : e.retired = false ∧ p.claimCheck t.tour t.lang = none
    · obtain ⟨active, passes⟩ := adopts
      have adopted : p.takeTune u (some t) = ((p.takeClaim t.tour).reassign u (some t)).raiseUnit u .adopted id := by
        simp [Part.takeTune, he, hcls, hnotice, hfree, active, passes]
      rw [adopted, ReportStep.entry_eq (ReportStep.raiseUnit _ _ _ _), Part.reassign_entry, Part.takeClaim_entry, he]
      simp [Option.filter, active, passes]
    · have refused : (!e.retired && (p.claimCheck t.tour t.lang).isNone) = false :=
        Bool.eq_false_iff.mpr fun passes => adopts (by simpa using passes)
      have idle : p.takeTune u (some t) = p := by
        simp only [Bool.and_eq_false_iff, Bool.not_eq_false'] at refused
        obtain retired | fails := refused
        · simp [Part.takeTune, he, hfree, retired]
        · simp [Part.takeTune, he, hfree, fails]
      rw [idle, Option.filter_some, refused, he]
      exact congrArg some kept.symm

/-- A listener that reports another tune than its assignment is sent a repair, while the assignment's tour is open. -/
theorem Part.takeTune_assigned {p : Part} {u : UnitId} {e : Entry} {a : Tune} (he : p.entry u = some e)
    (hcls : e.cls = .listener) (hnotice : e.notice = none) (ha : e.assignment = some a) (tune : Option Tune) :
    (p.takeTune u tune).entry u =
      some (if tune ≠ some a ∧ (p.tour a.tour).state.open = true then
        { e with notice := some (p.newNotice e .retune (some a) false), nextSeq := e.nextSeq + 1 } else e) := by
  by_cases repairs : tune ≠ some a ∧ (p.tour a.tour).state.open = true
  · obtain ⟨differs, hopen⟩ := repairs
    have repaired : p.takeTune u tune = p.raiseNotice u .retune (some a) false := by
      simp [Part.takeTune, he, hcls, hnotice, ha, differs, hopen]
    rw [repaired, if_pos ⟨differs, hopen⟩, Part.raiseNotice_entry he]
  · have idle : p.takeTune u tune = p := by
      by_cases same : tune = some a
      · simp [Part.takeTune, he, ha, same]
      · have closed : ¬(p.tour a.tour).state.open = true := fun h => repairs ⟨same, h⟩
        simp [Part.takeTune, he, ha, same, closed]
    rw [idle, if_neg repairs, he]

/-! ### The contents of a status (R30) -/

theorem Part.takeContents_acknowledged {p : Part} {u : UnitId} {e : Entry} {n : Notice} {st : StatusRecord}
    (he : p.entry u = some e) (hn : e.notice = some n) (hack : st.ack = some n.seq) :
    p.takeContents u st = p.acknowledge u n := by
  simp [Part.takeContents, he, hn, hack]

theorem Part.takeContents_unacknowledged {p : Part} {u : UnitId} {e : Entry} {st : StatusRecord}
    (he : p.entry u = some e) (h : ∀ n, e.notice = some n → st.ack ≠ some n.seq) :
    p.takeContents u st = p.takeTune u (reportedTune st.tour st.lang) := by
  cases hn : e.notice with
  | none => simp [Part.takeContents, he, hn]
  | some n => simp [Part.takeContents, he, hn, h n hn]

/-! ### A status the zone choice rule takes (R30) -/

/-- An entry as a status taken in a zone leaves it, before its contents are taken. -/
def Part.heard (p : Part) (z : ZoneNo) (st : StatusRecord) (e : Entry) : Entry :=
  { e with
    state := .onAir, level := st.level, quality := st.quality, lastHeard := p.now
    silence := some (p.now + 1000 * p.profile.silenceLimit), zone := some z }

/-- The entry is heard, the zones follow, and then the contents are taken. -/
theorem Part.takeStatus_eq (p : Part) (e : Entry) (z : ZoneNo) (st : StatusRecord) :
    ∃ r, p.takeStatus e z st = r.takeContents e.unit st ∧ ZoneStep (p.modEntry e.unit (p.heard z st)) r ∧
      r.published = p.published := by
  refine ⟨_, rfl, ?_, ?_⟩
  · split
    · exact ZoneStep.refl _
    · refine ZoneStep.trans ?_ ((ZoneStep.enterZone _ _ _).trans (ZoneStep.rehomeNotice _ _ _ _))
      split
      · exact ZoneStep.leaveZone _ _ _
      · exact ZoneStep.refl _
  · split
    · rfl
    · rw [Part.rehomeNotice_published, Part.enterZone_published]
      split
      · exact Part.leaveZone_published _ _ _
      · rfl

/-! ### A status of a unit without an entry (R28) -/

theorem Part.makePlace_of_free {p : Part} {i : Nat} (h : p.freePlace = some i) : p.makePlace = (p, some i) := by
  simp [Part.makePlace, h]

theorem Part.makePlace_of_oldest {p : Part} {x : Nat × Entry} (hfull : p.freePlace = none)
    (hold : p.oldestSilent = some x) : p.makePlace = (p.evict x.1 x.2.unit, some x.1) := by
  simp [Part.makePlace, hfull, hold]

theorem Part.makePlace_of_full {p : Part} (hfull : p.freePlace = none) (hold : p.oldestSilent = none) :
    p.makePlace = (p, none) := by
  simp [Part.makePlace, hfull, hold]

@[simp] theorem Part.evict_published (p : Part) (i : Nat) (u : UnitId) : (p.evict i u).published = p.published :=
  (ReportStep.raiseWith _ _ _ _).published_eq.trans (Retunes.strip p u).published

theorem Part.makePlace_published (p : Part) : p.makePlace.1.published = p.published := by
  unfold Part.makePlace
  split
  · rfl
  · split
    · exact Part.evict_published _ _ _
    · rfl

/-- An eviction frees the unit's places and leaves every other (R35). -/
theorem Part.evict_units (p : Part) (i : Nat) (u : UnitId) :
    (p.evict i u).units = p.units.filter (·.2.unit != u) := by
  have reported : (p.evict i u).units = ((p.strip u).removeEntry u).units :=
    (ReportStep.raiseWith _ _ _ _).toZone.units_eq
  exact reported.trans (Part.filter_of_stillAt (Retunes.strip p u).table)

theorem Part.entry_eq_none_iff {p : Part} {u : UnitId} : p.entry u = none ↔ ∀ x ∈ p.units, x.2.unit ≠ u := by
  simp [Part.entry, Part.find, List.find?_eq_none]

theorem Part.evict_entry_same (p : Part) (i : Nat) (u : UnitId) : (p.evict i u).entry u = none := by
  simp [Part.entry_eq_none_iff, Part.evict_units]

theorem Part.evict_entry_none {p : Part} {i : Nat} {u v : UnitId} (h : p.entry v = none) :
    (p.evict i u).entry v = none := by
  rw [Part.entry_eq_none_iff] at h ⊢
  rw [Part.evict_units]
  exact fun x hx => h x (List.mem_filter.mp hx).1

/-- The entry an eviction takes stands in the table. -/
theorem Part.oldestSilent_mem {p : Part} {x : Nat × Entry} (h : p.oldestSilent = some x) : x ∈ p.units := by
  refine List.foldlRecOn (motive := fun best => ∀ x, best = some x → x ∈ p.units) p.units _
    (fun _ start => by cases start) ?_ x h
  intro best hbest y hy
  split
  · split
    · rintro _ ⟨⟩; exact hy
    · split
      · rintro _ ⟨⟩; exact hy
      · exact hbest
  · exact hbest

theorem find?_insertEntry {i : Nat} {e : Entry} {l : List (Nat × Entry)} (h : ∀ x ∈ l, x.2.unit ≠ e.unit) :
    (insertEntry i e l).find? (·.2.unit == e.unit) = some (i, e) := by
  induction l with
  | nil => simp [insertEntry]
  | cons x l ih =>
    obtain ⟨other, later⟩ := List.forall_mem_cons.mp h
    rw [insertEntry]
    split
    · simp
    · split
      · simp
      · rw [List.find?_cons_of_neg (by simpa using other)]
        exact ih later

theorem mem_insertEntry {i : Nat} {e : Entry} {x : Nat × Entry} {l : List (Nat × Entry)}
    (h : x ∈ insertEntry i e l) : x = (i, e) ∨ x ∈ l := by
  induction l with
  | nil => exact .inl (List.mem_singleton.mp h)
  | cons y l ih =>
    rw [insertEntry] at h
    split at h
    · exact List.mem_cons.mp h
    · split at h
      · exact (List.mem_cons.mp h).imp_right (List.mem_cons_of_mem y)
      · obtain rfl | later := List.mem_cons.mp h
        · exact .inr List.mem_cons_self
        · exact (ih later).imp_right (List.mem_cons_of_mem y)

theorem Part.find_addEntry {p : Part} {e : Entry} (i : Nat) (h : p.entry e.unit = none) :
    (p.addEntry i e).find e.unit = some (i, e) := find?_insertEntry (Part.entry_eq_none_iff.mp h)

theorem Part.addEntry_entry_none {p : Part} {e : Entry} {v : UnitId} (i : Nat) (h : p.entry v = none)
    (hv : e.unit ≠ v) : (p.addEntry i e).entry v = none := by
  refine Part.entry_eq_none_iff.mpr fun x hx => ?_
  obtain rfl | listed := mem_insertEntry hx
  · exact hv
  · exact Part.entry_eq_none_iff.mp h x listed

/-- The entry a first status creates, before its contents are taken. -/
def Part.foundEntry (p : Part) (z : ZoneNo) (st : StatusRecord) : Entry :=
  { p.newEntry st.unit st.cls with
    state := .onAir, zone := some z, quality := st.quality, level := st.level
    silence := some (p.now + 1000 * p.profile.silenceLimit) }

/-- With a place the entry is listed, the zones follow, and then the contents are taken. -/
theorem Part.foundStatus_eq {p q : Part} {i : Nat} (h : p.makePlace = (q, some i)) (z : ZoneNo) (st : StatusRecord) :
    ∃ r, p.foundStatus z st = r.takeContents st.unit st ∧ ZoneStep (q.addEntry i (q.foundEntry z st)) r ∧
      r.published = q.published := by
  refine ⟨(((q.addEntry i (q.foundEntry z st)).raise (.unit i) .found).enterZone (q.foundEntry z st) z), ?_, ?_, ?_⟩
  · simp only [Part.foundStatus, h]; rfl
  · exact (ReportStep.raise _ _ _).toZone.trans (ZoneStep.enterZone _ _ _)
  · rw [Part.enterZone_published, Part.raise_published]; rfl

theorem Part.foundStatus_full {p : Part} (hfull : p.freePlace = none) (hold : p.oldestSilent = none) (z : ZoneNo)
    (st : StatusRecord) : p.foundStatus z st = p := by
  simp [Part.foundStatus, Part.makePlace_of_full hfull hold]

/-- The new entry stands in the place made, and no unit but the status's own comes into the table. -/
theorem Part.foundStatus_entry {p q : Part} {i : Nat} {st : StatusRecord} (h : p.makePlace = (q, some i))
    (new : q.entry st.unit = none) (z : ZoneNo) :
    (∃ d, (p.foundStatus z st).find st.unit = some (i, d) ∧ d.still = (q.foundEntry z st).still) ∧
      ∀ v, v ≠ st.unit → q.entry v = none → (p.foundStatus z st).entry v = none := by
  obtain ⟨r, found, step, -⟩ := Part.foundStatus_eq h z st
  have contents := (Retunes.takeContents r st.unit st).table
  rw [found]
  refine ⟨Part.find_same_of_stillAt contents ?_, fun v hv absent => ?_⟩
  · have listed : (q.addEntry i (q.foundEntry z st)).find st.unit = some (i, q.foundEntry z st) :=
      Part.find_addEntry i new
    rw [← listed, Part.find, Part.find, step.units_eq]
  · rw [Part.entry_of_stillAt contents hv, step.entry_eq]
    exact Part.addEntry_entry_none i absent (Ne.symm hv)

/-! ### A status record (R27) -/

/-- No status record changes what a zone has published. -/
@[simp] theorem Part.statusRecord_published (p : Part) (z : ZoneNo) (st : StatusRecord) :
    (p.statusRecord z st).published = p.published := by
  unfold Part.statusRecord
  split
  · rfl
  · split
    · rfl
    · split
      · have placed := Part.makePlace_published p
        cases h : p.makePlace with
        | mk q o =>
          rw [h] at placed
          cases o with
          | none => simpa only [Part.foundStatus, h] using placed
          | some i =>
            obtain ⟨r, found, -, kept⟩ := Part.foundStatus_eq h z st
            rw [found, (Retunes.takeContents r st.unit st).published, kept, placed]
      · split
        · rfl
        · split
          · rfl
          · split
            · next e _ _ _ _ =>
              obtain ⟨r, taken, -, kept⟩ := Part.takeStatus_eq p e z st
              rw [taken, (Retunes.takeContents r e.unit st).published, kept]
            · rfl

end Sys2Proof.Machine
end

section
/-! CYCLE_MARK: the boundary as a whole, and each answer to a status record. -/

namespace Sys2Proof.Machine

/-! ### The plan a boundary publishes -/

/-- A boundary: what is filed and advanced before the plan, the plan, the lingers, the statuses (R51). -/
theorem Part.boundary_published (p : Part) (z : ZoneNo) (m : CycleMark) {q w : Part}
    (hq : q = (takenPackets m).foldl (fun q v => q.filePacket z v) (p.markTaken z m.cycle))
    (hw : w = if (q.house.covers z && q.house.advanceDue) = true then q.houseAdvance else q) :
    (p.boundary z m).published = (w.publish z m.cycle).published := by
  subst hq hw
  rw [Part.boundary, Part.foldl_published fun q st => q.statusRecord_published z st]
  exact Part.modZone_published _ _ Zone.countLinger_published

theorem exec_cycleMark {s : State} {z : ZoneNo} (h : s.deaf = false) (hup : (s.part.zone z).state = .up)
    (m : CycleMark) :
    ∃ t, exec (.cycleMark z m) s = .next t ∧ s.after t ∧ ReportStep (s.part.boundary z m) t.part := by
  obtain ⟨t, run, after, step⟩ := exec_partEvent (i := .cycleMark z m) h rfl
  rw [if_pos hup] at step
  exact ⟨t, run, after, step⟩

/-! ### The answers to a status record (R27) -/

theorem Part.unit_of_entry {p : Part} {u : UnitId} {e : Entry} (he : p.entry u = some e) : e.unit = u := by
  obtain ⟨x, found, rfl⟩ := Option.map_eq_some_iff.mp he
  simpa using List.find?_some found

theorem Part.zoneChoice_eq_false {p : Part} {e : Entry} {y z : ZoneNo} {n : Nat} (hy : e.zone = some y) (hne : y ≠ z)
    (weak : n ≤ e.quality + p.profile.zoneMargin) (recent : p.now - e.lastHeard ≤ 1000 * p.profile.zoneStale) :
    p.zoneChoice e z n = false := by
  simp [Part.zoneChoice, hy, hne, Nat.not_lt.mpr weak, Nat.not_lt.mpr recent]

theorem Part.zoneChoice_eq_true {p : Part} {e : Entry} {z : ZoneNo} {n : Nat}
    (h : e.zone = none ∨ e.zone = some z ∨ e.quality + p.profile.zoneMargin < n ∨
      1000 * p.profile.zoneStale < p.now - e.lastHeard) : p.zoneChoice e z n = true := by
  unfold Part.zoneChoice
  cases hy : e.zone with
  | none => rfl
  | some y => simpa [hy, or_assoc] using h

theorem Part.statusRecord_refused {p : Part} {st : StatusRecord} (z : ZoneNo)
    (h : validUnit st.unit = false ∨ p.unlistedIn st.unit = true) : p.statusRecord z st = p := by
  obtain invalid | unlisted := h
  · simp [Part.statusRecord, invalid]
  · simp [Part.statusRecord, unlisted]

section
variable {p : Part} {st : StatusRecord} (valid : validUnit st.unit = true) (listed : p.unlistedIn st.unit = false)
include valid listed

theorem Part.statusRecord_found (z : ZoneNo) (he : p.entry st.unit = none) :
    p.statusRecord z st = p.foundStatus z st := by
  simp [Part.statusRecord, valid, listed, he]

theorem Part.statusRecord_other {e : Entry} (z : ZoneNo) (he : p.entry st.unit = some e)
    (h : e.state = .docked ∨ e.cls ≠ st.cls) : p.statusRecord z st = p := by
  by_cases docked : e.state = .docked
  · simp [Part.statusRecord, valid, listed, he, docked]
  · simp [Part.statusRecord, valid, listed, he, docked, h.resolve_left docked]

theorem Part.statusRecord_declined {e : Entry} {z : ZoneNo} (he : p.entry st.unit = some e)
    (hstate : e.state ≠ .docked) (hcls : e.cls = st.cls) (declined : p.zoneChoice e z st.quality = false) :
    p.statusRecord z st = p.modEntry st.unit fun e =>
      { e with level := st.level, silence := some (p.now + 1000 * p.profile.silenceLimit) } := by
  simp [Part.statusRecord, valid, listed, he, hstate, hcls, declined]

/-- A status taken: the entry is heard and the zones follow, which leaves the tour table; then its contents. -/
theorem Part.statusRecord_taken {e : Entry} {z : ZoneNo} (he : p.entry st.unit = some e)
    (hstate : e.state ≠ .docked) (hcls : e.cls = st.cls) (taken : p.zoneChoice e z st.quality = true) :
    ∃ r, p.statusRecord z st = r.takeContents st.unit st ∧ r.entry st.unit = some (p.heard z st e) ∧
      ZoneStep (p.modEntry st.unit (p.heard z st)) r := by
  obtain ⟨r, eq, step, -⟩ := Part.takeStatus_eq p e z st
  rw [Part.unit_of_entry he] at eq step
  refine ⟨r, ?_, ?_, step⟩
  · simp [Part.statusRecord, valid, listed, he, hstate, hcls, taken, eq]
  · rw [step.entry_eq, p.entry_modEntry_same st.unit (f := p.heard z st) fun _ => rfl, he]; rfl

end

/-- Settles O51: each step of the boundary by what it makes, the published plan by what later steps leave. -/
theorem boundaryFilesFramesCountsLingersAndTakesStatuses :
    Obligations.BoundaryFilesFramesCountsLingersAndTakesStatuses := by
  refine ⟨fun s z m h hup => ?mark, fun p z m q hq => ?order, fun p z v => ⟨?filed, ?noPlan, ?noUnit⟩,
    fun p => ?house, fun p x c t hc => ⟨?voice, Part.chooseFrame_silence hc⟩, fun s z m q w h hup hq hw => ?plan,
    fun p z n st c hc => Part.publish_carriage n hc, fun x st c n distinct hc waits => ?linger,
    fun p z st => ⟨Part.statusRecord_refused z, fun valid listed => ⟨fun absent => ⟨?full, ?free, ?evicts⟩,
      fun e he => ⟨Part.statusRecord_other valid listed z he, fun hstate hcls => ⟨?declined, fun chosen => ?taken⟩⟩⟩⟩⟩
  case mark => exact exec_cycleMark h hup m
  case order => subst hq; rfl
  case filed =>
    intro plan u t hplan hslot hsource hsound
    rw [Part.filePacket_sounding hplan hslot hsource hsound]
    exact ⟨FrameStore.frame_file_same _ _ _, rfl, fun y hy => FrameStore.frame_file_other _ _ hy, rfl⟩
  case noPlan => intro noPlan; simp [Part.filePacket, noPlan]
  case noUnit => intro plan hplan noUnit; simp [Part.filePacket, hplan, noUnit]
  case house =>
    have advanced := ReportStep.houseAdvance p
    have each : Track.advance = fun k : Track => match k.buffer with
        | a :: rest => { k with buffer := rest, current := some a, serial := k.serial + 1 }
        | [] => { k with current := none, starved := min (k.starved + 1) 65535 } := by
      funext ⟨lang, buffer, current, serial, received, replaced, starved⟩
      cases buffer <;> rfl
    rw [each] at advanced
    exact advanced
  case voice => intro f hsound hf fresh; exact Part.chooseFrame_voice hc hsound hf fresh
  case plan =>
    obtain ⟨t, run, -, step⟩ := exec_cycleMark h hup m
    obtain ⟨plan, published, audio⟩ := Part.publish_plan w z m.cycle
    have kept := Part.zone_of_published (step.published_eq.trans (Part.boundary_published s.part z m hq hw)) z
    exact ⟨t, plan, run, kept.1.trans (congrArg Prod.fst published), kept.2.trans (congrArg Prod.snd published), audio⟩
  case linger =>
    rw [Zone.countLinger_carriage distinct waits, hc]
    refine ⟨fun stays => ?_, fun runs more => ?_, fun runs last => ?_⟩
    · simp [Carriage.counted_of_none stays, stays, Option.filter]
    · have : ¬n - 1 = 0 := by omega
      simp [Carriage.counted, runs, Option.filter, this]
    · have : n - 1 = 0 := by omega
      simp [Carriage.counted, runs, Option.filter, this]
  case full =>
    intro full old
    rw [Part.statusRecord_found valid listed z absent, Part.foundStatus_full full old]
  case free =>
    intro i place
    obtain ⟨⟨d, found, still⟩, -⟩ := Part.foundStatus_entry (Part.makePlace_of_free place) absent z
    rw [Part.statusRecord_found valid listed z absent]
    exact ⟨d, found, congrArg Entry.state still, congrArg Entry.zone still, congrArg Entry.cls still,
      congrArg Entry.level still, congrArg Entry.quality still⟩
  case evicts =>
    intro i v full old
    obtain ⟨⟨d, found, still⟩, others⟩ :=
      Part.foundStatus_entry (Part.makePlace_of_oldest full old) (Part.evict_entry_none absent) z
    have other : v.unit ≠ st.unit := Part.entry_eq_none_iff.mp absent _ (Part.oldestSilent_mem old)
    rw [Part.statusRecord_found valid listed z absent]
    exact ⟨others _ other (Part.evict_entry_same _ _ _), d, found, congrArg Entry.state still,
      congrArg Entry.zone still⟩
  case declined =>
    intro y hy hne weak recent
    rw [Part.statusRecord_declined valid listed he hstate hcls (Part.zoneChoice_eq_false hy hne weak recent)]
    refine ⟨?_, rfl⟩
    rw [p.entry_modEntry_same st.unit (f := fun e =>
      { e with level := st.level, silence := some (p.now + 1000 * p.profile.silenceLimit) }) fun _ => rfl, he]
    rfl
  case taken =>
    obtain ⟨r, record, entry, step⟩ :=
      Part.statusRecord_taken valid listed he hstate hcls (Part.zoneChoice_eq_true chosen)
    obtain ⟨d, hd, still⟩ := Part.entry_same_of_stillAt (Retunes.takeContents r st.unit st).table entry
    have check (k : TourNo) (l : LangNo) : r.claimCheck k l = p.claimCheck k l := step.claimCheck_eq k l
    have noNotice (hn : e.notice = none) :
        r.takeContents st.unit st = r.takeTune st.unit (reportedTune st.tour st.lang) :=
      Part.takeContents_unacknowledged entry fun m hm => by cases hn.symm.trans hm
    rw [record]
    refine ⟨d, hd, congrArg Entry.state still, congrArg Entry.zone still, congrArg Entry.level still,
      congrArg Entry.quality still, congrArg Entry.lastHeard still, congrArg Entry.silence still, fun n hn hack => ?ack,
      fun n hn hack => ?other, fun hn hvoice => ?voice, fun hn hl free => ?adopt, fun a hn hl ha => ?repair⟩
    case ack =>
      rw [Part.takeContents_acknowledged entry hn hack, Part.acknowledge_entry entry hn] at hd
      obtain rfl := Option.some.inj hd
      refine ⟨rfl, fun hk => ?_, fun hk => ?_, fun t hk ht => ⟨fun hr => ?_, fun hr => ?_⟩⟩
      · simp [Part.ackAssignment, hk]
      · simp [Part.ackAssignment, hk, Part.heard]
      · simp [Part.ackAssignment, hk, ht, hr]
      · simp only [Part.ackAssignment, hk, ht, hr, check]
        simp [Part.heard]
    case other =>
      rw [Part.takeContents_unacknowledged entry (fun m hm => Option.some.inj (hn.symm.trans hm) ▸ hack),
        Part.takeTune_kept entry (.inr (by rw [show (p.heard z st e).notice = some n from hn]; rfl)), entry] at hd
      obtain rfl := Option.some.inj hd
      exact ⟨rfl, rfl⟩
    case voice =>
      have notListener : (p.heard z st e).cls ≠ .listener := fun hl => by cases hvoice.symm.trans hl
      rw [noNotice hn, Part.takeTune_kept entry (.inl notListener), entry] at hd
      obtain rfl := Option.some.inj hd
      exact ⟨rfl, hn⟩
    case adopt =>
      rw [noNotice hn, Part.takeTune_unassigned entry hl hn free] at hd
      obtain rfl := Option.some.inj hd
      refine ⟨hn, fun t ht => ?_⟩
      simp [ht, check, Option.filter, Part.heard]
    case repair =>
      rw [noNotice hn, Part.takeTune_assigned entry hl hn ha, step.tour_eq] at hd
      obtain rfl := Option.some.inj hd
      have air : AirStep p r := (AirStep.modEntry _ _ _).trans step.toAir
      rw [air.newNotice_eq]
      split
      · next repairs => exact ⟨ha, (if_pos repairs).symm⟩
      · next idle => exact ⟨ha, hn.trans (if_neg idle).symm⟩

end Sys2Proof.Machine
end

section
/-! ZONE_STATS_CLEAR, the down timer and the expiry of a linger: what each makes of a zone's record, of the unit
table and of the other zones. -/

namespace Sys2Proof.Machine

/-! ### Zone records after a report and after a fold over zones -/

theorem ReportStep.zone_eq {p q : Part} (h : ReportStep p q) (z : ZoneNo) : q.zone z = p.zone z := by rw [h]; rfl

theorem Part.zone_foldl_modZone_other {z : ZoneNo} (f : Zone → Zone) (zs : List ZoneNo) (p : Part) (h : z ∉ zs) :
    (zs.foldl (fun q y => q.modZone y f) p).zone z = p.zone z := by
  induction zs generalizing p with
  | nil => rfl
  | cons y zs ih =>
    obtain ⟨other, later⟩ := not_or.mp (mt List.mem_cons.mpr h)
    exact (ih _ later).trans (p.zone_modZone_other y z f other)

theorem Part.zone_foldl_modZone_mem {z : ZoneNo} (f : Zone → Zone) {zs : List ZoneNo} (p : Part) (distinct : zs.Nodup)
    (h : z ∈ zs) : (zs.foldl (fun q y => q.modZone y f) p).zone z = f (p.zone z) := by
  induction zs generalizing p with
  | nil => cases h
  | cons y zs ih =>
    obtain ⟨fresh, distinct'⟩ := List.nodup_cons.mp distinct
    obtain rfl | later := List.mem_cons.mp h
    · exact (Part.zone_foldl_modZone_other f zs _ fresh).trans (p.zone_modZone_same z f)
    · have other : z ≠ y := fun same => fresh (same ▸ later)
      exact (ih _ distinct' later).trans (congrArg f (p.zone_modZone_other y z f other))

/-- A fold over zones changes zone records alone. -/
theorem Part.foldl_modZone_frame (f : Zone → Zone) (zs : List ZoneNo) (p : Part) :
    zs.foldl (fun q y => q.modZone y f) p =
      { p with zones := (zs.foldl (fun q y => q.modZone y f) p).zones } :=
  foldl_step (R := fun p q => q = { p with zones := q.zones }) (fun _ => rfl)
    (fun {_ _ r} h k => k.trans (congrArg (fun x : Part => { x with zones := r.zones }) h)) (fun _ _ => rfl) zs p

/-! ### ZONE_STATS_CLEAR (R70) -/

theorem statsZones_none {f : HostField ZoneSel} (h : f = .absent ∨ f = .bad ∨ ∃ n, f = .val (.one n) ∧ 7 < n) :
    statsZones f = none := by
  obtain rfl | rfl | ⟨n, rfl, out⟩ := h
  · rfl
  · rfl
  · have none : zoneField (.val n) = none := indexField_none (.inr (.inr ⟨n, rfl, .inr (by omega)⟩))
    simp [statsZones, none]

theorem ownZoneStatsClear_of_zones {f : HostField ZoneSel} {zs : List ZoneNo} (h : statsZones f = some zs) (nv : Nv)
    (p : Part) :
    ownZoneStatsClear f nv p = (zs.foldl (fun q z => q.modZone z Zone.clearStats) p, .reply .ok []) := by
  simp [ownZoneStatsClear, h]

/-- Settles O32: the zones named take their present values one after the other, and no zone is named twice. -/
theorem zoneStatsClearSetsThePeaks : Obligations.ZoneStatsClearSetsThePeaks := by
  refine fun s tag h => ⟨fun z => ?one, ?all, fun f hf => ?refused⟩
  case one =>
    have named : statsZones (.val (.one z.val)) = some [z] := by simp [statsZones]
    exact exec_answered h rfl (ownZoneStatsClear_of_zones named _ _)
  case all =>
    obtain ⟨t, run, answered, part⟩ := exec_answered (i := .zoneStatsClear tag (.val .all)) h rfl
      (ownZoneStatsClear_of_zones (show statsZones (.val .all) = some allZones from rfl) _ _)
    refine ⟨t, run, answered, ?_, fun z => ?_⟩
    · rw [part]; exact Part.foldl_modZone_frame _ _ _
    · rw [part]; exact Part.zone_foldl_modZone_mem _ _ (List.nodup_finRange 8) (List.mem_finRange z)
  case refused => exact exec_answered h rfl (by simp [ownZoneStatsClear, statsZones_none hf, refuse])

/-! ### A zone's teardown (R36, R65) -/

/-- A zone's record after its teardown. -/
def Zone.tornDown (x : Zone) (state : ZoneState) : Zone :=
  { x with
    state := state, downTimer := none, carriages := [], waitQueue := []
    uplink := Vector.replicate 7 none, uplinkQueue := [], plan := none, lastDirectory := []
    noticeQueue := [], overflow := [] }

/-- One entry of a zone torn down: its zone is cleared and its notice finds new homes (R36, R78). -/
def Part.clearEntryZone (p : Part) (u : UnitId) : Part :=
  (p.modEntry u fun e => { e with zone := none }).rehomeNotice u [] (p.homes none)

theorem Part.clearZone_eq (p : Part) (z : ZoneNo) :
    p.clearZone z =
      ((p.units.filter fun x => x.2.zone == some z).map (·.2.unit)).foldl (fun q u => q.clearEntryZone u) p := rfl

theorem ZoneStep.clearEntryZone (p : Part) (u : UnitId) :
    ZoneStep (p.modEntry u fun e => { e with zone := none }) (p.clearEntryZone u) := ZoneStep.rehomeNotice _ _ _ _

/-- A zone that is not UP is no home of a notice (R74). -/
theorem Part.not_mem_homes {p : Part} {z : ZoneNo} (h : (p.zone z).state ≠ .up) (o : Option ZoneNo) :
    z ∉ p.homes o := by
  simp [Part.homes, h]

theorem Part.clearEntryZone_zone {p : Part} {z : ZoneNo} (h : (p.zone z).state ≠ .up) (u : UnitId) :
    (p.clearEntryZone u).zone z = p.zone z := by
  unfold Part.clearEntryZone Part.rehomeNotice
  split
  · rfl
  · exact Part.zone_foldl_modZone_other _ _ _ fun new => Part.not_mem_homes h none (List.mem_filter.mp new).1

theorem Part.foldl_clearEntryZone_zone {z : ZoneNo} (us : List UnitId) {p : Part} (h : (p.zone z).state ≠ .up) :
    (us.foldl (fun q u => q.clearEntryZone u) p).zone z = p.zone z := by
  induction us generalizing p with
  | nil => rfl
  | cons u us ih =>
    have same := Part.clearEntryZone_zone h u
    exact (ih (by rw [same]; exact h)).trans same

/-- An entry that still has the zone was there before and was not among those cleared. -/
theorem Part.foldl_clearEntryZone_units {z : ZoneNo} {x : Nat × Entry} (us : List UnitId) {p : Part}
    (listed : x ∈ (us.foldl (fun q u => q.clearEntryZone u) p).units) (there : x.2.zone = some z) :
    x ∈ p.units ∧ x.2.unit ∉ us := by
  induction us generalizing p with
  | nil => exact ⟨listed, List.not_mem_nil⟩
  | cons u us ih =>
    obtain ⟨before, later⟩ := ih listed
    rw [(ZoneStep.clearEntryZone p u).units_eq] at before
    obtain ⟨y, old, changed⟩ := List.mem_map.mp before
    by_cases same : y.2.unit = u
    · rw [if_pos same] at changed
      subst changed
      cases there
    · rw [if_neg same] at changed
      subst changed
      exact ⟨old, fun h => (List.mem_cons.mp h).elim same later⟩

theorem Part.clearZone_units {p : Part} {z : ZoneNo} {x : Nat × Entry} (listed : x ∈ (p.clearZone z).units) :
    x.2.zone ≠ some z := by
  intro there
  rw [Part.clearZone_eq] at listed
  obtain ⟨before, spared⟩ := Part.foldl_clearEntryZone_units _ listed there
  exact spared (List.mem_map_of_mem (List.mem_filter.mpr ⟨before, by simp [there]⟩))

/-- Beside unit entries, clearing a zone changes zone records and the pending set alone. -/
theorem ZoneStep.clearZone (p : Part) (z : ZoneNo) :
    ZoneStep { p with units := (p.clearZone z).units } (p.clearZone z) := by
  rw [Part.clearZone_eq]
  refine foldl_step (R := fun p q => ZoneStep { p with units := q.units } q) ZoneStep.refl ?_ (fun q u => ?_) _ p
  · intro p q r h k
    unfold ZoneStep at h k ⊢
    exact k.trans (congrArg
      (fun x : Part => { x with units := r.units, zones := r.zones, reports := r.reports }) h)
  · rw [(ZoneStep.clearEntryZone q u).units_eq]
    exact ZoneStep.clearEntryZone q u

theorem Part.teardownZone_eq (p : Part) (z : ZoneNo) (state : ZoneState) :
    p.teardownZone z state =
      ((p.setZone z ((p.zone z).tornDown state)).clearZone z).raise (.zone z) .zoneDown := rfl

theorem Part.teardownZone_zone (p : Part) (z : ZoneNo) {state : ZoneState} (h : state ≠ .up) :
    (p.teardownZone z state).zone z = (p.zone z).tornDown state := by
  rw [Part.teardownZone_eq, (ReportStep.raise _ _ _).zone_eq, Part.clearZone_eq, Part.foldl_clearEntryZone_zone,
    Part.zone_setZone_same]
  rw [Part.zone_setZone_same]
  exact h

theorem Part.teardownZone_units {p : Part} {z : ZoneNo} {state : ZoneState} {x : Nat × Entry}
    (listed : x ∈ (p.teardownZone z state).units) : x.2.zone ≠ some z := by
  rw [Part.teardownZone_eq, (ReportStep.raise _ _ _).toZone.units_eq] at listed
  exact Part.clearZone_units listed

theorem ZoneStep.teardownZone (p : Part) (z : ZoneNo) (state : ZoneState) :
    ZoneStep { p with units := (p.teardownZone z state).units } (p.teardownZone z state) := by
  have reported : ReportStep ((p.setZone z ((p.zone z).tornDown state)).clearZone z) (p.teardownZone z state) :=
    ReportStep.raise _ _ _
  rw [reported.toZone.units_eq]
  exact (ZoneStep.clearZone (p.setZone z ((p.zone z).tornDown state)) z).trans reported.toZone

theorem Part.mem_units_of_entry {p : Part} {u : UnitId} {e : Entry} (h : p.entry u = some e) :
    ∃ x ∈ p.units, x.2 = e := by
  obtain ⟨x, found, rfl⟩ := Option.map_eq_some_iff.mp h
  exact ⟨x, List.mem_of_find?_eq_some found, rfl⟩

/-! ### The expiry of a linger (R57) -/

theorem Zone.serveList_waitQueue {st : CarrStream} (q : List CarrStream) (x : Zone)
    (h : st ∈ (Zone.serveList q x).waitQueue) : st ∈ q := by
  induction q generalizing x with
  | nil => exact h
  | cons a rest ih =>
    rw [Zone.serveList] at h
    split at h
    · exact List.mem_cons_of_mem a (ih _ h)
    · exact h

theorem Zone.dropCarriages_carriage (x : Zone) (st : CarrStream) : (x.dropCarriages (· == st)).carriage st = none := by
  simp [Zone.carriage, Zone.dropCarriages]

theorem Zone.dropCarriages_waitQueue (x : Zone) (st : CarrStream) : st ∉ (x.dropCarriages (· == st)).waitQueue := by
  simp [Zone.dropCarriages]

/-- A lingering carriage that expires leaves its zone, and its stream does not wait. -/
theorem Zone.expireLinger_gone {x : Zone} {st : CarrStream} {c : Carriage} (hc : x.carriage st = some c)
    (lingers : c.linger.isSome = true) :
    (x.expireLinger st).carriage st = none ∧ st ∉ (x.expireLinger st).waitQueue := by
  have served : x.expireLinger st = (x.dropCarriages (· == st)).serveWait := by
    simp [Zone.expireLinger, hc, lingers]
  have out := x.dropCarriages_waitQueue st
  rw [served]
  exact ⟨(Zone.serveList_carriage _ _ out).trans (x.dropCarriages_carriage st),
    fun waits => out (Zone.serveList_waitQueue _ _ waits)⟩

/-- Settles O35: the zone torn down is no home of a notice while the entries are cleared, and so keeps the record
its teardown gave it; an expired linger leaves both the carriages and the wait queue before that is served. -/
theorem downTimerAndLingerExpiriesFreeTheSlots : Obligations.DownTimerAndLingerExpiriesFreeTheSlots := by
  refine ⟨fun s z d h hup hd => ?down, fun s z st c h hup hc lingers => ?linger⟩
  case down =>
    obtain ⟨t, run, after, reported⟩ := exec_partEvent (i := .downTimerExpiry z) h rfl
    have expired : s.part.downExpiry z = (s.part.reach d).teardownZone z .down := by
      simp only [Part.downExpiry, hup, hd]
    rw [expired] at reported
    have zone : t.part.zone z = ((s.part.reach d).zone z).tornDown .down :=
      (reported.zone_eq z).trans ((s.part.reach d).teardownZone_zone z (by decide))
    have step : ZoneStep { s.part.reach d with units := t.part.units } t.part := by
      rw [reported.toZone.units_eq]
      exact (ZoneStep.teardownZone (s.part.reach d) z .down).trans reported.toZone
    refine ⟨t, run, after, ?_⟩
    rw [zone]
    refine ⟨rfl, rfl, rfl, rfl, rfl, rfl, rfl, rfl, fun u e he => ?_, ?_, ?_, ?_⟩
    · obtain ⟨x, listed, rfl⟩ := Part.mem_units_of_entry he
      rw [reported.toZone.units_eq] at listed
      exact Part.teardownZone_units listed
    · exact (AirStep.teardownZone (s.part.reach d) z .down).trans reported.toAir
    · rw [step]; rfl
    · rw [step]; rfl
  case linger =>
    obtain ⟨t, run, after, reported⟩ := exec_partEvent (i := .lingerExpiry z st) h rfl
    rw [if_pos hup] at reported
    obtain ⟨gone, out⟩ := Zone.expireLinger_gone hc lingers
    have zone : t.part.zone z = (s.part.zone z).expireLinger st :=
      (reported.zone_eq z).trans (s.part.zone_modZone_same z _)
    refine ⟨t, run, after, ?_⟩
    rw [zone]
    exact ⟨gone, out,
      fun y hy => (reported.zone_eq y).trans (s.part.zone_modZone_other z y _ hy),
      (ZoneStep.modZone s.part z _).trans reported.toZone⟩

end Sys2Proof.Machine
end

section
/-! What the operations of the air side leave of every zone's record beside its working plan: the zone's standing,
its timer, its cycle and what it has published. -/

namespace Sys2Proof.Machine

/-! ### A zone's record beside its working plan -/

/-- A zone without what the scheduler, the notices and the tour table change of it. -/
def Zone.shell (x : Zone) : Zone :=
  { x with
    carriages := [], waitQueue := [], uplink := Vector.replicate 7 none, uplinkQueue := [], noticeQueue := []
    overflow := [], closingSet := [], soundingSet := [], peakSlots := 0, peakWaiting := 0 }

section
variable (x : Zone)

@[simp] theorem Zone.serveList_shell (q : List CarrStream) : (Zone.serveList q x).shell = x.shell := by
  induction q generalizing x with
  | nil => rfl
  | cons st rest ih =>
    rw [Zone.serveList]
    split
    · exact ih _
    · rfl

@[simp] theorem Zone.countLinger_shell : x.countLinger.shell = x.shell := by
  simp only [Zone.countLinger]
  split
  · rfl
  · exact Zone.serveList_shell _ _

@[simp] theorem Zone.serveUplinkList_shell (q : List (UnitId × Bool)) :
    (Zone.serveUplinkList q x).shell = x.shell := by
  induction q generalizing x with
  | nil => rfl
  | cons u rest ih =>
    rw [Zone.serveUplinkList]
    split
    · exact ih _
    · rfl

@[simp] theorem Zone.claimUplink_shell (u : UnitId) (floor : Bool) : (x.claimUplink u floor).shell = x.shell := by
  unfold Zone.claimUplink
  split
  · rfl
  · split
    · rfl
    · split <;> rfl

@[simp] theorem Zone.releaseUplink_shell (u : UnitId) : (x.releaseUplink u).shell = x.shell := by
  unfold Zone.releaseUplink
  split
  · exact Zone.serveUplinkList_shell _ _
  · rfl

@[simp] theorem Zone.placeNotice_shell (u : UnitId) : (x.placeNotice u).shell = x.shell := by
  unfold Zone.placeNotice
  split <;> rfl

@[simp] theorem Zone.unplaceNotices_shell (us : List UnitId) : (x.unplaceNotices us).shell = x.shell := by
  simp only [Zone.unplaceNotices]
  split <;> rfl

end

/-! ### A step of the air that leaves every zone's shell -/

/-- Every zone keeps its standing, its timer, its cycle and what it has published. -/
def ShellStep (p q : Part) : Prop := ∀ z, (q.zone z).shell = (p.zone z).shell

namespace ShellStep

theorem refl (p : Part) : ShellStep p p := fun _ => rfl

theorem trans {p q r : Part} (h : ShellStep p q) (k : ShellStep q r) : ShellStep p r := fun z => (k z).trans (h z)

theorem foldl {α : Type} {f : Part → α → Part} (h : ∀ q a, ShellStep q (f q a)) (l : List α) (p : Part) :
    ShellStep p (l.foldl f p) := foldl_step refl trans h l p

theorem ofReport {p q : Part} (h : ReportStep p q) : ShellStep p q := fun z => congrArg Zone.shell (h.zone_eq z)

theorem setZone (p : Part) (z : ZoneNo) {x : Zone} (h : x.shell = (p.zone z).shell) : ShellStep p (p.setZone z x) := by
  intro y
  by_cases same : y = z
  · subst same
    rw [Part.zone_setZone_same, h]
  · rw [Part.zone_setZone_other _ _ _ _ same]

theorem modZone (p : Part) (z : ZoneNo) {f : Zone → Zone} (h : ∀ x, (f x).shell = x.shell) :
    ShellStep p (p.modZone z f) := setZone p z (h _)

theorem createCarriage (p : Part) (z : ZoneNo) (st : CarrStream) (n : Nat) :
    ShellStep p (p.createCarriage z st n) := by
  simp only [Part.createCarriage]
  split
  · exact setZone p z rfl
  · refine trans (setZone p z ?_) (ofReport (ReportStep.noteCrowded _ _ _))
    rfl

theorem addListener (p : Part) (z : ZoneNo) (t : Tune) : ShellStep p (p.addListener z t) := by
  unfold Part.addListener
  split
  · exact refl p
  · split
    · exact modZone p z fun _ => rfl
    · exact createCarriage p z _ _

theorem removeListener (p : Part) (z : ZoneNo) (t : Tune) : ShellStep p (p.removeListener z t) := by
  unfold Part.removeListener
  split
  · exact refl p
  · split
    · exact refl p
    · split
      · exact refl p
      · split
        · exact modZone p z fun _ => rfl
        · split <;> exact modZone p z fun _ => rfl

theorem moveListener (p : Part) (z : ZoneNo) (old new : Option Tune) : ShellStep p (p.moveListener z old new) := by
  unfold Part.moveListener
  split
  · exact refl p
  · cases old with
    | none =>
      cases new with
      | none => exact refl p
      | some t => exact addListener p z t
    | some o =>
      cases new with
      | none => exact removeListener p z o
      | some t => exact (removeListener p z o).trans (addListener _ z t)

theorem claimUplink (p : Part) (z : ZoneNo) (u : UnitId) (floor : Bool) : ShellStep p (p.claimUplink z u floor) := by
  unfold Part.claimUplink
  split
  · exact refl p
  · exact modZone p z fun _ => by simp

theorem releaseUplink (p : Part) (z : ZoneNo) (u : UnitId) : ShellStep p (p.releaseUplink z u) := by
  unfold Part.releaseUplink
  split
  · exact refl p
  · exact modZone p z fun _ => by simp

theorem handSets (p : Part) : ShellStep p p.handSets := fun z => by
  simp [Part.zone, Part.handSets, Zone.shell]

theorem placeNoticeIn (p : Part) (u : UnitId) (zs : List ZoneNo) : ShellStep p (p.placeNoticeIn u zs) :=
  foldl (fun q z => modZone q z fun _ => by simp) zs p

theorem unplaceNoticesIn (p : Part) (us : List UnitId) (zs : List ZoneNo) : ShellStep p (p.unplaceNoticesIn us zs) :=
  foldl (fun q z => modZone q z fun _ => by simp) zs p

theorem rehomeNotice (p : Part) (u : UnitId) (old new : List ZoneNo) : ShellStep p (p.rehomeNotice u old new) := by
  unfold Part.rehomeNotice
  split
  · exact refl p
  · exact (unplaceNoticesIn p _ _).trans (placeNoticeIn _ u _)

theorem leaveZone (p : Part) (e : Entry) (z : ZoneNo) : ShellStep p (p.leaveZone e z) := by
  unfold Part.leaveZone
  split
  · exact moveListener p z _ _
  · exact releaseUplink p z _

theorem enterZone (p : Part) (e : Entry) (z : ZoneNo) : ShellStep p (p.enterZone e z) := by
  unfold Part.enterZone
  split
  · exact moveListener p z _ _
  · split
    · exact claimUplink p z _ _
    · exact refl p

/-! ### The tour table -/

theorem setTour (p : Part) (t : TourNo) (x : Tour) : ShellStep p (p.setTour t x) := fun _ => rfl

theorem restream (before after : Part) : ShellStep after (before.restream after) := by
  unfold Part.restream
  refine (foldl (fun q x => ?_) _ after).trans (handSets _)
  split
  · exact moveListener q _ _ _
  · exact refl q

theorem releaseClaim (p : Part) (t : TourNo) : ShellStep p (p.releaseClaim t) := by
  simp only [Part.releaseClaim]
  split
  · exact (setTour p t _).trans ((ofReport (ReportStep.raise _ _ _)).trans (handSets _))
  · exact setTour p t _

theorem dropSource (p : Part) (t : TourNo) (x : LangNo × UnitId) : ShellStep p (p.dropSource t x) := by
  simp only [Part.dropSource]
  split
  · exact releaseUplink (p.modTour t _) _ _
  · exact fun _ => rfl

theorem withdrawSource (p : Part) (u : UnitId) : ShellStep p (p.withdrawSource u) := by
  simp only [Part.withdrawSource]
  split
  · exact refl p
  · next s _ =>
    refine trans (q := Part.restream p _) ((dropSource p s.tour (s.lang, u)).trans (trans ?_ (restream p _)))
      (ofReport (ReportStep.raise _ _ _))
    split
    · exact trans (setTour _ _ _) (ofReport (ReportStep.raise _ _ _))
    · exact refl _

/-! ### Notices -/

theorem clearNotice (p : Part) (release : Bool) (u : UnitId) : ShellStep p (p.clearNotice release u) := by
  simp only [Part.clearNotice]
  split
  · exact refl p
  · split
    · split
      · exact releaseClaim (p.modEntry u _) _
      · exact fun _ => rfl
    · exact fun _ => rfl

theorem endNotice (p : Part) (u : UnitId) : ShellStep p (p.endNotice u) := by
  simp only [Part.endNotice, Part.endNotices]
  split
  · exact refl p
  · exact (foldl (fun q v => clearNotice q true v) _ p).trans (unplaceNoticesIn _ _ _)

theorem pend (p : Part) (u : UnitId) (k : NoticeKind) (t : Option Tune) (r : Bool) : ShellStep p (p.pend u k t r) := by
  unfold Part.pend
  split
  · exact refl p
  · exact placeNoticeIn (p.modEntry u _) u _

theorem raiseNotice (p : Part) (u : UnitId) (k : NoticeKind) (t : Option Tune) (r : Bool) :
    ShellStep p (p.raiseNotice u k t r) := by
  have reserved (q : Part) : ShellStep q (q.reserveFor t r) := by
    cases t <;> cases r <;> exact fun _ => rfl
  rw [Part.raiseNotice_eq]
  exact ((endNotice p u).trans (reserved _)).trans (pend _ u k t r)

/-! ### The unit table -/

theorem reassign (p : Part) (u : UnitId) (a : Option Tune) : ShellStep p (p.reassign u a) := by
  simp only [Part.reassign]
  split
  · exact refl p
  · split
    · exact moveListener (p.modEntry u _) _ _ _
    · exact fun _ => rfl

theorem unassign (p : Part) (u : UnitId) : ShellStep p (p.unassign u) := by
  unfold Part.unassign
  split
  · exact (reassign p u none).trans (releaseClaim _ _)
  · exact refl p

theorem claimFor (p : Part) (u : UnitId) (t : Tune) : ShellStep p ((p.takeClaim t.tour).reassign u (some t)) :=
  reassign (p.takeClaim t.tour) u (some t)

theorem makePlace (p : Part) : ShellStep p p.makePlace.1 := by
  unfold Part.makePlace
  split
  · exact refl p
  · split
    · next x _ =>
      have stripped : ShellStep p (p.strip x.2.unit) :=
        ((unassign p x.2.unit).trans (endNotice _ _)).trans (withdrawSource _ _)
      have removed : ShellStep (p.strip x.2.unit) ((p.strip x.2.unit).removeEntry x.2.unit) := fun _ => rfl
      exact (stripped.trans removed).trans (ofReport (ReportStep.raiseWith _ _ _ _))
    · exact refl p

theorem ackEffect (p : Part) (u : UnitId) (old : Option Tune) (n : Notice) : ShellStep p (p.ackEffect u old n) := by
  simp only [Part.ackEffect]
  split
  · split
    · split
      · exact (reassign p u _).trans (releaseClaim _ _)
      · exact reassign p u _
    · split
      · split
        · exact reassign p u _
        · split
          · exact (claimFor p u _).trans (releaseClaim _ _)
          · exact unassign p u
      · split
        · exact claimFor p u _
        · exact refl p
  · exact unassign p u
  · exact refl p

theorem acknowledge (p : Part) (u : UnitId) (n : Notice) : ShellStep p (p.acknowledge u n) :=
  (((clearNotice p false u).trans (ackEffect _ u _ n)).trans (unplaceNoticesIn _ _ _)).trans
    (ofReport (ReportStep.raiseUnit _ _ _ _))

theorem takeTune (p : Part) (u : UnitId) (t : Option Tune) : ShellStep p (p.takeTune u t) := by
  simp only [Part.takeTune]
  split
  · exact refl p
  · split
    · exact refl p
    · split
      · split
        · exact refl p
        · split
          · exact (claimFor p u _).trans (ofReport (ReportStep.raiseUnit _ _ _ _))
          · exact refl p
      · split
        · exact refl p
        · split
          · exact raiseNotice p u _ _ _
          · exact refl p
      · exact refl p

theorem takeContents (p : Part) (u : UnitId) (st : StatusRecord) : ShellStep p (p.takeContents u st) := by
  unfold Part.takeContents
  split
  · split
    · exact acknowledge p u _
    · exact takeTune p u _
  · exact takeTune p u _

theorem foundStatus (p : Part) (z : ZoneNo) (st : StatusRecord) : ShellStep p (p.foundStatus z st) := by
  simp only [Part.foundStatus]
  have placed := makePlace p
  have added (q : Part) (i : Nat) (e : Entry) : ShellStep q (q.addEntry i e) := fun _ => rfl
  split <;> rename_i made <;> rw [made] at placed
  · exact placed
  · exact (placed.trans ((added _ _ _).trans (ofReport (ReportStep.raise _ _ _)))).trans
      ((enterZone _ _ _).trans (takeContents _ _ _))

theorem takeStatus (p : Part) (e : Entry) (z : ZoneNo) (st : StatusRecord) : ShellStep p (p.takeStatus e z st) := by
  simp only [Part.takeStatus]
  split
  · exact takeContents (p.modEntry _ _) _ _
  · refine trans ?_ (takeContents _ _ _)
    refine trans ?_ ((enterZone _ _ _).trans (rehomeNotice _ _ _ _))
    split
    · exact leaveZone (p.modEntry _ _) _ _
    · exact fun _ => rfl

theorem statusRecord (p : Part) (z : ZoneNo) (st : StatusRecord) : ShellStep p (p.statusRecord z st) := by
  unfold Part.statusRecord
  split
  · exact refl p
  · split
    · exact refl p
    · split
      · exact foundStatus p z st
      · split
        · exact refl p
        · split
          · exact refl p
          · split
            · exact takeStatus p _ z st
            · exact fun _ => rfl

end ShellStep

end Sys2Proof.Machine
end

section
/-! CYCLE_MARK: what the mark makes of the zone's record, and the plan it publishes. -/

namespace Sys2Proof.Machine

/-! ### From the mark to the plan (R51, steps 1 and 2) -/

theorem Part.filePacket_frame (p : Part) (z : ZoneNo) (v : VoicePacket) :
    p.filePacket z v = { p with frames := (p.filePacket z v).frames } := by
  unfold Part.filePacket
  split
  · rfl
  · split
    · rfl
    · split
      · rfl
      · split <;> rfl

theorem Part.houseAdvance_zone (p : Part) (z : ZoneNo) : p.houseAdvance.zone z = p.zone z :=
  (ReportStep.houseAdvance p).zone_eq z

theorem Part.foldl_filePacket_zone (z y : ZoneNo) (vs : List VoicePacket) (p : Part) :
    (vs.foldl (fun q v => q.filePacket z v) p).zone y = p.zone y :=
  foldl_step (R := fun p q => q.zone y = p.zone y) (fun _ => rfl) (fun h k => k.trans h)
    (fun q v => by rw [q.filePacket_frame z v]; rfl) vs p

/-- The part whose plan a boundary publishes: the mark is taken, the packets are filed and a due house advance is
made. -/
def Part.marked (p : Part) (z : ZoneNo) (m : CycleMark) : Part :=
  let q := (takenPackets m).foldl (fun q v => q.filePacket z v) (p.markTaken z m.cycle)
  if q.house.covers z && q.house.advanceDue then q.houseAdvance else q

theorem Part.marked_zone (p : Part) (z : ZoneNo) (m : CycleMark) :
    (p.marked z m).zone z = (p.markTaken z m.cycle).zone z := by
  simp only [Part.marked]
  split
  · rw [Part.houseAdvance_zone, Part.foldl_filePacket_zone]
  · rw [Part.foldl_filePacket_zone]

/-- The zone's record after step 1: the next cycle count is one more below the maximum (R45). -/
theorem Part.markTaken_zone (p : Part) (z : ZoneNo) (n : BitVec 16) :
    ∃ count, (p.markTaken z n).zone z =
        { p.zone z with downTimer := some (p.now + 250), cycleNumber := n, cycleCount := count } ∧
      ((p.zone z).cycleCount < 4294967295 → count = (p.zone z).cycleCount + 1) := by
  simp only [Part.markTaken]
  split
  · exact ⟨_, Part.zone_setZone_same _ _ _, fun _ => rfl⟩
  · next past => exact ⟨_, Part.zone_setZone_same _ _ _, fun below => absurd below past⟩

/-- What follows the plan in a boundary leaves the zones' shells (R51, steps 5 and 6). -/
theorem Part.boundary_shell (p : Part) (z : ZoneNo) (m : CycleMark) :
    ShellStep ((p.marked z m).publish z m.cycle) (p.boundary z m) :=
  (ShellStep.modZone _ z Zone.countLinger_shell).trans (ShellStep.foldl (fun q st => ShellStep.statusRecord q z st) _ _)

/-! ### The plan (R50, R52, R76) -/

theorem Part.beaconNotices_length_le (p : Part) (x : Zone) : (p.beaconNotices x).length ≤ 4 :=
  Nat.le_trans (List.length_filterMap_le _ _) (List.length_take_le 4 x.noticeQueue)

/-- The plan published and sent is that of the zone's carriages, and its beacon carries the next cycle number. -/
theorem Part.publish_shell (p : Part) (z : ZoneNo) (n : BitVec 16) :
    ∃ plan directory revision,
      ((p.publish z n).zone z).shell =
        { (p.zone z).shell with
          plan := some plan, sent := some (.cyclePlan plan), lastDirectory := directory, revision := revision } ∧
      plan.beacon.zone = z ∧ plan.beacon.cycle = n + 1 ∧ plan.beacon.notices.length ≤ 4 ∧
      plan.holders = (p.zone z).holders.map fun h => (h.1, h.2.stream) := by
  simp only [Part.publish, Part.zone_setZone_same]
  exact ⟨_, _, _, rfl, rfl, rfl, p.beaconNotices_length_le _, rfl⟩

/-- Settles O34: the plan is published from the zone's record as step 1 leaves it, and what follows in the boundary
leaves that record's shell. -/
theorem cycleMarkPublishesThePlan : Obligations.CycleMarkPublishesThePlan := by
  refine fun s z m h => ⟨fun notUp => ?discarded, fun hup => ?taken⟩
  case discarded =>
    obtain ⟨t, run, after, reported⟩ := exec_partEvent (i := .cycleMark z m) h rfl
    rw [if_neg notUp] at reported
    exact ⟨t, run, after, reported⟩
  case taken =>
    obtain ⟨t, run, after, reported⟩ := exec_cycleMark h hup m
    obtain ⟨count, marked, counted⟩ := s.part.markTaken_zone z m.cycle
    obtain ⟨plan, directory, revision, published, zone, cycle, notices, holders⟩ :=
      (s.part.marked z m).publish_shell z m.cycle
    rw [Part.marked_zone, marked] at published holders
    have shell := ((s.part.boundary_shell z m).trans (ShellStep.ofReport reported) z).trans published
    exact ⟨t, plan, run, after, (congrArg Zone.state shell).trans hup, congrArg Zone.cycleNumber shell,
      congrArg Zone.downTimer shell, fun below => (congrArg Zone.cycleCount shell).trans (counted below),
      congrArg Zone.plan shell, congrArg Zone.sent shell, zone, cycle, notices, holders⟩

end Sys2Proof.Machine
end

section
/-! ZONE_HELLO: the zone's record as it comes UP, and its carriages after a teardown. -/

namespace Sys2Proof.Machine

/-! ### Carriages of house tracks alone -/

/-- Every carriage of the zone is a house track's. -/
def Zone.houseOnly (x : Zone) : Prop := ∀ c ∈ x.carriages, ∃ k, c.stream = .house k

theorem Zone.houseOnly_modCarriage {x : Zone} (h : x.houseOnly) (st : CarrStream) {f : Carriage → Carriage}
    (hf : ∀ c, (f c).stream = c.stream) : (x.modCarriage st f).houseOnly := by
  intro c hc
  obtain ⟨d, hd, rfl⟩ := List.mem_map.mp hc
  obtain ⟨k, hk⟩ := h d hd
  refine ⟨k, ?_⟩
  split <;> simp [hf, hk]

theorem Zone.houseOnly_placeIn {x : Zone} (h : x.houseOnly) (st : CarrStream) (n : Nat) :
    (x.placeIn st n).houseOnly := Zone.houseOnly_modCarriage h st fun _ => rfl

theorem Zone.houseOnly_dropCarriages {x : Zone} (h : x.houseOnly) (gone : CarrStream → Bool) :
    (x.dropCarriages gone).houseOnly := fun c hc => h c (List.mem_filter.mp hc).1

/-- A zone with one more carriage, a house track's that is not placed. -/
def Zone.withTrack (x : Zone) (k : TrackNo) : Zone :=
  { x with carriages := x.carriages ++ [Carriage.mk (.house k) none 0 none none none] }

theorem Zone.houseOnly_withTrack {x : Zone} (h : x.houseOnly) (k : TrackNo) : (x.withTrack k).houseOnly := by
  intro c hc
  obtain old | new := List.mem_append.mp hc
  · exact h c old
  · exact ⟨k, by rw [List.mem_singleton.mp new]⟩

/-- A house track claim brings in no carriage but its own (R59). -/
theorem Zone.houseOnly_claimTrack (cls : CarrStream → Nat) {zv : Zone × List Carriage} (h : zv.1.houseOnly)
    (k : TrackNo) : (Zone.claimTrack cls zv k).1.houseOnly := by
  have added := Zone.houseOnly_withTrack h k
  simp only [Zone.claimTrack]
  split
  · exact h
  · split
    · exact Zone.houseOnly_placeIn added _ _
    · split
      · exact added
      · split
        · exact Zone.houseOnly_placeIn (Zone.houseOnly_dropCarriages added _) _ _
        · refine Zone.houseOnly_placeIn (Zone.houseOnly_modCarriage added _ fun _ => ?_) _ _
          rfl

theorem Zone.claimTrack_shell (cls : CarrStream → Nat) (zv : Zone × List Carriage) (k : TrackNo) :
    (Zone.claimTrack cls zv k).1.shell = zv.1.shell := by
  simp only [Zone.claimTrack]
  split
  · rfl
  · split
    · rfl
    · split
      · rfl
      · split <;> rfl

theorem Zone.claimTracks_houseOnly (cls : CarrStream → Nat) (ks : List TrackNo) {zv : Zone × List Carriage}
    (h : zv.1.houseOnly) : (ks.foldl (Zone.claimTrack cls) zv).1.houseOnly :=
  List.foldlRecOn (motive := fun zv : Zone × List Carriage => zv.1.houseOnly) ks _ h
    fun _ kept k _ => Zone.houseOnly_claimTrack cls kept k

theorem Zone.claimTracks_shell (cls : CarrStream → Nat) (ks : List TrackNo) (zv : Zone × List Carriage) :
    (ks.foldl (Zone.claimTrack cls) zv).1.shell = zv.1.shell :=
  List.foldlRecOn (motive := fun w : Zone × List Carriage => w.1.shell = zv.1.shell) ks _ rfl
    fun w kept k _ => (Zone.claimTrack_shell cls w k).trans kept

theorem ShellStep.claimTracks (p : Part) (z : ZoneNo) (ks : List TrackNo) : ShellStep p (p.claimTracks z ks) := by
  simp only [Part.claimTracks]
  split
  · exact ShellStep.refl p
  · refine ShellStep.trans (ShellStep.setZone p z ?_) (ShellStep.ofReport (ReportStep.noteCrowded _ _ _))
    exact Zone.claimTracks_shell p.streamClass ks (p.zone z, [])

theorem Part.claimTracks_houseOnly {p : Part} {z : ZoneNo} (h : (p.zone z).houseOnly) (ks : List TrackNo) :
    ((p.claimTracks z ks).zone z).houseOnly := by
  simp only [Part.claimTracks]
  split
  · exact h
  · rw [(ReportStep.noteCrowded _ _ _).zone_eq, Part.zone_setZone_same]
    exact Zone.claimTracks_houseOnly p.streamClass ks (zv := (p.zone z, [])) h

/-! ### A zone comes UP (R66, R78) -/

/-- A zone's record as it comes UP at a time, its setup message sent. -/
def Zone.comeUp (x : Zone) (setup : ZoneMessage) (now : Millis) : Zone :=
  { x with sent := some setup, state := .up, cycleCount := 0, downTimer := some (now + 250) }

/-- The part with the zone UP and the claims of the house tracks handed to it, before the notices return. -/
def Part.zoneRisen (p : Part) (z : ZoneNo) : Part :=
  let q := p.modZone z fun x => x.comeUp (p.zoneSetup z) p.now
  if q.house.covers z then q.handTracks z else q

theorem Part.zoneUp_eq (p : Part) (z : ZoneNo) :
    p.zoneUp z =
      ((p.zoneRisen z).zonelessNotices.foldl (fun q u => q.modZone z (·.placeNotice u)) (p.zoneRisen z)).raise
        (.zone z) .zoneUp := rfl

theorem Part.zoneUp_shell (p : Part) (z : ZoneNo) :
    ((p.zoneUp z).zone z).shell = ((p.zone z).comeUp (p.zoneSetup z) p.now).shell := by
  have risen : ShellStep (p.modZone z fun x => x.comeUp (p.zoneSetup z) p.now) (p.zoneRisen z) := by
    simp only [Part.zoneRisen]
    split
    · exact ShellStep.claimTracks _ _ _
    · exact ShellStep.refl _
  have returned (us : List UnitId) (q : Part) :
      ShellStep q (us.foldl (fun q u => q.modZone z (·.placeNotice u)) q) :=
    ShellStep.foldl (fun q u => ShellStep.modZone q z fun x => x.placeNotice_shell u) us q
  rw [Part.zoneUp_eq, (risen.trans ((returned _ _).trans (ShellStep.ofReport (ReportStep.raise _ _ _)))) z,
    Part.zone_modZone_same]

theorem Zone.placeNotice_carriages (x : Zone) (u : UnitId) : (x.placeNotice u).carriages = x.carriages := by
  unfold Zone.placeNotice
  split <;> rfl

theorem Part.foldl_placeNotice_carriages (z : ZoneNo) (us : List UnitId) (p : Part) :
    ((us.foldl (fun q u => q.modZone z (·.placeNotice u)) p).zone z).carriages = (p.zone z).carriages :=
  foldl_step (R := fun p q => (q.zone z).carriages = (p.zone z).carriages) (fun _ => rfl) (fun h k => k.trans h)
    (fun q u => by rw [Part.zone_modZone_same, Zone.placeNotice_carriages]) us p

theorem Part.zoneUp_houseOnly {p : Part} {z : ZoneNo} (h : (p.zone z).houseOnly) :
    ((p.zoneUp z).zone z).houseOnly := by
  have risen : ((p.zoneRisen z).zone z).houseOnly := by
    have up : ((p.modZone z fun x => x.comeUp (p.zoneSetup z) p.now).zone z).houseOnly := by
      rw [Part.zone_modZone_same]; exact h
    simp only [Part.zoneRisen]
    split
    · exact Part.claimTracks_houseOnly up _
    · exact up
  rw [Part.zoneUp_eq, (ReportStep.raise _ _ _).zone_eq, Zone.houseOnly, Part.foldl_placeNotice_carriages]
  exact risen

/-! ### A HELLO (R47) -/

/-- A HELLO brings a zone UP from its record as it was, or as its teardown leaves it. -/
theorem Part.zoneHello_rises {p : Part} {z : ZoneNo} (h : (p.zone z).state ≠ .disabled) :
    ∃ q, p.zoneHello z = q.zoneUp z ∧ AirStep p q ∧
      ((p.zone z).state = .up → q.zone z = (p.zone z).tornDown .down) ∧ ((p.zone z).state = .down → q = p) := by
  cases state : (p.zone z).state with
  | disabled => exact absurd state h
  | down =>
    exact ⟨p, by simp only [Part.zoneHello, state], AirStep.refl p, fun up => (nomatch up), fun _ => rfl⟩
  | up =>
    exact ⟨p.teardownZone z .down, by simp only [Part.zoneHello, state], AirStep.teardownZone p z .down,
      fun _ => p.teardownZone_zone z (by decide), fun down => (nomatch down)⟩

theorem AirStep.comeUp_eq {p q : Part} (h : AirStep p q) (x : Zone) (z : ZoneNo) :
    x.comeUp (q.zoneSetup z) q.now = x.comeUp (p.zoneSetup z) p.now := by rw [h]; rfl

/-- Settles O33: the zone comes UP from a record the teardown has emptied, or from its record as it stood; the
house tracks' claims and the returning notices leave its shell. -/
theorem helloBringsAZoneUp : Obligations.HelloBringsAZoneUp := by
  intro s z h
  obtain ⟨t, run, after, reported⟩ := exec_partEvent (i := .zoneHello z) h rfl
  refine ⟨fun disabled => ?discarded, fun enabled => ?rises⟩
  case discarded =>
    have kept : s.part.zoneHello z = s.part := by simp only [Part.zoneHello, disabled]
    rw [kept] at reported
    exact ⟨t, run, after, reported⟩
  case rises =>
    obtain ⟨q, hello, air, torn, stood⟩ := Part.zoneHello_rises enabled
    rw [hello] at reported
    have shell : (t.part.zone z).shell = ((q.zone z).comeUp (s.part.zoneSetup z) s.part.now).shell := by
      rw [reported.zone_eq, Part.zoneUp_shell, air.comeUp_eq]
    refine ⟨t, run, after, congrArg Zone.state shell, congrArg Zone.cycleCount shell, congrArg Zone.downTimer shell,
      congrArg Zone.sent shell, fun up => ⟨?_, ?_⟩, fun down => ?_, ?_⟩
    · exact (congrArg Zone.plan shell).trans (congrArg Zone.plan (torn up))
    · rw [reported.zone_eq]
      refine Part.zoneUp_houseOnly ?_
      rw [torn up]
      exact fun c listed => nomatch listed
    · obtain rfl := stood down
      exact (ZoneStep.zoneUp _ z).trans reported.toZone
    · exact air.trans ((ZoneStep.zoneUp q z).trans reported.toZone).toAir

end Sys2Proof.Machine
end

section
/-! UNIT_RETUNE and UNIT_LOCATE: what a raise leaves of a tour's count, and the two commands that raise a notice
and answer with it. -/

namespace Sys2Proof.Machine

/-! ### The count of an open tour along a raise (R15, R16, R73) -/

/-- A release takes 1 from its own tour, and an open tour does not become FREE by it (R7). -/
theorem Part.releaseClaim_tour_of_open {p : Part} {k : TourNo} (hopen : (p.tour k).state.open = true) (t : TourNo) :
    (p.releaseClaim t).tour k =
      if t = k then { p.tour k with count := (p.tour k).count - 1 } else p.tour k := by
  rw [(ZoneStep.releaseClaim p t).tour_eq k]
  by_cases own : t = k
  · subst own
    have stays : ¬((p.tour t).state = .closing ∧ (p.tour t).count ≤ 1) :=
      fun ⟨closing, _⟩ => by simp [closing, TourState.open] at hopen
    rw [if_pos rfl, if_neg stays, Part.tour_setTour_same]
  · rw [if_neg own, Part.tour_setTour_other _ _ _ _ (Ne.symm own)]

@[simp] theorem Part.modEntry_tour (p : Part) (u : UnitId) (f : Entry → Entry) (k : TourNo) :
    (p.modEntry u f).tour k = p.tour k := rfl

/-- The end of a unit's notice gives back the claim that check 7 of UNIT_RETUNE counts as free (R83). -/
theorem Part.clearNotice_tour_count {p : Part} {u : UnitId} {e : Entry} {k : TourNo} (he : p.entry u = some e)
    (hopen : (p.tour k).state.open = true) : ((p.clearNotice true u).tour k).count = p.countWithout k e := by
  have pending : (p.entry u).bind (·.notice) = e.notice := by rw [he]; rfl
  cases hn : e.notice with
  | none => simp [Part.clearNotice, Part.countWithout, pending, hn]
  | some n =>
    cases hr : n.reserving with
    | false =>
      rw [Part.clearNotice_plain (pending.trans hn) hr]
      simp [Part.countWithout, hn, hr]
    | true =>
      cases hx : n.target with
      | none => simp [Part.clearNotice, Part.countWithout, pending, hn, hr, hx]
      | some x =>
        rw [Part.clearNotice_reserving (pending.trans hn) hr hx,
          Part.releaseClaim_tour_of_open (by rwa [Part.modEntry_tour])]
        by_cases own : x.tour = k <;> simp [Part.countWithout, hn, hr, hx, own]

/-- Apart from its places, the end of a notice is `clearNotice`. -/
theorem ZoneStep.endNotice (p : Part) (u : UnitId) : ZoneStep (p.clearNotice true u) (p.endNotice u) := by
  cases hn : (p.entry u).bind (·.notice) with
  | none =>
    rw [Part.endNotice_free hn]
    simpa only [Part.clearNotice, hn] using ZoneStep.refl p
  | some n =>
    rw [Part.endNotice_pending (by simp [hn])]
    exact ZoneStep.unplaceNoticesIn _ _ _

@[simp] theorem Part.pend_tour (p : Part) (u : UnitId) (k : NoticeKind) (t : Option Tune) (r : Bool) (j : TourNo) :
    (p.pend u k t r).tour j = p.tour j := by
  unfold Part.pend
  split
  · rfl
  · exact (ZoneStep.placeNoticeIn _ _ _).tour_eq j

/-- A reserving raise: the claim of the notice it supersedes is given back first, and then its own is taken. -/
theorem Part.raiseNotice_tour_count {p : Part} {u : UnitId} {e : Entry} {x : Tune} (he : p.entry u = some e)
    (hopen : (p.tour x.tour).state.open = true) (k : NoticeKind) :
    ((p.raiseNotice u k (some x) true).tour x.tour).count = p.countWithout x.tour e + 1 := by
  rw [Part.raiseNotice_eq, Part.pend_tour]
  calc (((p.endNotice u).takeClaim x.tour).tour x.tour).count
      = ((p.endNotice u).tour x.tour).count + 1 := by rw [Part.takeClaim, Part.tour_modTour_same]
    _ = ((p.clearNotice true u).tour x.tour).count + 1 := by rw [(ZoneStep.endNotice p u).tour_eq]
    _ = p.countWithout x.tour e + 1 := by rw [Part.clearNotice_tour_count he hopen]

/-! ### The commands that raise a notice (R83, R84) -/

/-- A command whose owner raises a notice and answers with it: the reply, the unit's entry, and what the raise leaves
as it is. -/
theorem exec_raises {i : Instr} {s : State} {tag : Byte} {verb : Text} {o : Owner} {u : UnitId} {e : Entry}
    {k : NoticeKind} {x : Option Tune} {r : Bool} (h : s.takes tag)
    (row : exec i s = .next (s.hostCommand tag verb o)) (he : s.part.entry u = some e)
    (owned : o s.nv s.part = (s.part.raiseNotice u k x r,
      .reply .ok ((s.part.raiseNotice u k x r).noticeFields u e.nextSeq))) :
    ∃ t, exec i s = .next t ∧ t.part = s.part.raiseNotice u k x r ∧
      s.answered t tag verb .ok
        [fld "seq" (numText e.nextSeq.toNat), fld "life" (numText s.part.profile.noticeLife),
         fld "zones" (zonesText (t.part.queuedZones u))] ∧
      t.part.entry u = some { e with notice := some (s.part.newNotice e k x r), nextSeq := e.nextSeq + 1 } ∧
      (∀ v, v ≠ u → t.part.entry v = s.part.entry v) ∧ AirStep s.part t.part := by
  obtain ⟨t, run, answered, part⟩ := exec_answered h row owned
  have air : AirStep s.part t.part := part ▸ AirStep.raiseNotice s.part u k x r
  have life : t.part.profile = s.part.profile := by rw [air]
  rw [← part, Part.noticeFields, life] at answered
  refine ⟨t, run, part, answered, ?_, fun v hv => ?_, air⟩
  · exact part ▸ Part.raiseNotice_entry he k x r
  · exact part ▸ Part.entry_of_stillAt (Retunes.raiseNotice s.part u k x r).table hv

/-- Settles O27: every check passes, so the owner raises the notice, and the raise takes the claim. -/
theorem unitRetuneRaisesAReservingNotice : Obligations.UnitRetuneRaisesAReservingNotice := by
  intro s tag u k l e h hu he hcls hstate hretired hl hopen hcount hroom
  obtain ⟨t, run, part, answered, entry, others, air⟩ :=
    exec_raises (i := .unitRetune tag (.val u) (.val (k.val + 1)) (.val (l.val + 1)))
      (k := .retune) (x := some ⟨k, l⟩) (r := true) h rfl he
      (by simp [ownUnitRetune, hu, he, hcls, hstate, hretired, hl, hopen, Nat.not_le.mpr hcount, hroom])
  refine ⟨t, _, run, answered, entry, rfl, ?_, others, air⟩
  exact part ▸ Part.raiseNotice_tour_count he hopen .retune

/-- Settles O28: by the checks of UNIT_LOCATE in their order; past them the owner raises the notice. -/
theorem unitLocateRaisesALocateNotice : Obligations.UnitLocateRaisesALocateNotice := by
  intro s tag u h
  refine ⟨fun hu => ?invalid, fun hu => ⟨fun he => ?unknown, fun e he =>
    ⟨fun hstate => ?docked, fun hstate hroom => ?full, fun hstate hroom => ?raised⟩⟩⟩
  case invalid => exact exec_answered h rfl (by simp [ownUnitLocate, unitField, hu, refuse])
  case unknown => exact exec_answered h rfl (by simp [ownUnitLocate, hu, he, refuse])
  case docked => exact exec_answered h rfl (by simp [ownUnitLocate, hu, he, hstate, refuse])
  case full => exact exec_answered h rfl (by simp [ownUnitLocate, hu, he, hstate, hroom, refuse])
  case raised =>
    obtain ⟨t, run, _, answered, entry, others, air⟩ :=
      exec_raises (i := .unitLocate tag (.val u)) (k := .locate) (x := none) (r := false) h rfl he
        (by simp [ownUnitLocate, hu, he, hstate, hroom])
    exact ⟨t, run, answered, entry, others, air⟩

end Sys2Proof.Machine
end

section
/-! The house controller: the AUDIO frames its tracks take, the elapses of its period timer, and the commands that
start, change and stop its program. -/

namespace Sys2Proof.Machine

/-! ### AUDIO frames (R92) -/

/-- The change of a track at its place is the library's change of a list at an index. -/
theorem modTrack_eq_modify (f : Track → Track) (n : Nat) (ks : List Track) : modTrack f n ks = ks.modify n f := by
  induction ks generalizing n with
  | nil => simp [modTrack]
  | cons k ks ih =>
    cases n with
    | zero => rfl
    | succ n => rw [modTrack, ih, List.modify_succ_cons]

theorem Track.receive_room {k : Track} (h : k.buffer.length < 8) (a : Audio) :
    k.receive a = { k with buffer := k.buffer ++ [a], received := min (k.received + 1) 65535 } := if_pos h

theorem Track.receive_full {k : Track} (h : 8 ≤ k.buffer.length) (a : Audio) :
    k.receive a =
      { k with buffer := k.buffer.drop 1 ++ [a], received := min (k.received + 1) 65535
               replaced := min (k.replaced + 1) 65535 } := if_neg (Nat.not_lt.mpr h)

/-- An AUDIO frame is discarded while the record is IDLE. -/
theorem House.audio_idle {h : House} (idle : h.running = false) (track : Byte) (a : Audio) : h.audio track a = h := by
  simp [House.audio, idle]

/-- While a program runs, an AUDIO frame is received by the track it names. -/
theorem House.audio_running {h : House} (running : h.running = true) {track : Byte} (named : 1 ≤ track.toNat)
    (a : Audio) : h.audio track a = { h with tracks := h.tracks.modify (track.toNat - 1) (·.receive a) } := by
  simp [House.audio, running, named, modTrack_eq_modify]

/-- An AUDIO frame is discarded for a track the program has not. -/
theorem House.audio_absent {h : House} {track : Byte} (absent : h.tracks.length < track.toNat) (a : Audio) :
    h.audio track a = h := by
  cases running : h.running with
  | false => exact House.audio_idle running track a
  | true =>
    have past : h.tracks.length ≤ track.toNat - 1 := by omega
    rw [House.audio_running running (by omega), List.modify_eq_self past]

/-- An AUDIO row during no load: the framer is left HUNTING, and of the part only the house record changes, up to a
report taken. -/
theorem exec_audio {s : State} {track : Byte} {body : List Byte} (h : s.deaf = false) (lo : 1 ≤ track.toNat)
    (hi : track.toNat ≤ 4) (nonempty : body ≠ []) :
    ∃ t, exec (.audio track body) s = .next t ∧ t.link.framer = .hunting ∧ t.link.slot = s.link.slot ∧
      t.nv = s.nv ∧ t.pending = s.pending ∧
      ReportStep { s.part with house := s.part.house.audio track body } t.part := by
  have row : exec (.audio track body) s = .next
      ({ s with
          link := { s.link with framer := .hunting }
          part := { s.part with house := s.part.house.audio track body } } : State).arbitrate := by
    change (.next (s.event fun s => s.audio track body) : Result) = _
    simp [State.event, h, State.audio, lo, hi, nonempty]
  exact ⟨_, row, State.arbitrate_framer _, State.arbitrate_slot _, State.arbitrate_nv _, State.arbitrate_pending _,
    State.arbitrate_report _⟩

/-- Settles O16: the house record is the one its own rule leaves, and the frame changes the track at its place. -/
theorem audioFrameJoinsItsTracksBuffer : Obligations.AudioFrameJoinsItsTracksBuffer := by
  intro s track body h lo hi nonempty
  obtain ⟨t, run, framer, slot, nv, pending, reported⟩ := exec_audio h lo hi nonempty
  have house : t.part.house = s.part.house.audio track body := by rw [reported]
  refine ⟨t, run, framer, slot, nv, pending, by rw [house]; exact reported, fun idle => ?idle, fun absent => ?absent,
    fun k running listed => ?received⟩
  case idle => rw [house, House.audio_idle idle]
  case absent => rw [house, House.audio_absent absent]
  case received =>
    have taken := house.trans (House.audio_running running lo body)
    have tracks := congrArg House.tracks taken
    have received : t.part.house.tracks[track.toNat - 1]? = some (k.receive body) := by
      rw [tracks, List.getElem?_modify_eq, listed]; rfl
    refine ⟨by rw [taken], by rw [tracks, List.length_modify], fun n other => ?_, fun room => ?_, fun full => ?_⟩
    · rw [tracks, List.getElem?_modify_ne _ _ (Ne.symm other)]
    · rw [received, Track.receive_room room]
    · rw [received, Track.receive_full full]

/-! ### The house period timer (R93) -/

theorem Part.houseElapse_running {p : Part} {d : Millis} (h : p.house.period = some d) :
    p.houseElapse =
      { p with
        now := max p.now d
        house := { p.house with advanceDue := true, period := some (d + 40) } } := by
  simp only [Part.houseElapse, h]
  rfl

/-- Settles O37: the timer runs, so its elapse changes the time and the house record. -/
theorem housePeriodElapseSetsAdvanceDue : Obligations.HousePeriodElapseSetsAdvanceDue := by
  intro s d h running
  obtain ⟨t, run, after, reported⟩ := exec_partEvent (i := .housePeriodElapse) h rfl
  rw [Part.houseElapse_running running] at reported
  exact ⟨t, run, after, reported⟩

/-! ### HOUSE_START, HOUSE_ZONES and HOUSE_STOP (R88 to R90) -/

theorem ZoneStep.house_eq {p q : Part} (h : ZoneStep p q) : q.house = p.house := by rw [h]

theorem ZoneStep.withHouse {p q : Part} (h : ZoneStep p q) (x : House) :
    ZoneStep { p with house := x } { q with house := x } := by
  unfold ZoneStep at h ⊢; rw [h]

theorem ZoneStep.handTracks (p : Part) (z : ZoneNo) : ZoneStep p (p.handTracks z) := ZoneStep.claimTracks p z _

theorem ZoneStep.foldl_releaseTracks (zs : List ZoneNo) (p : Part) :
    ZoneStep p (zs.foldl (fun q z => q.releaseTracks z) p) := ZoneStep.foldl ZoneStep.releaseTracks zs p

theorem ZoneStep.foldl_handTracks (zs : List ZoneNo) (p : Part) :
    ZoneStep p (zs.foldl (fun q z => q.handTracks z) p) := ZoneStep.foldl ZoneStep.handTracks zs p

/-- The record of a program as it starts at a time: one empty track per language, and advance due. -/
def House.started (zs : List ZoneNo) (ls : List LangNo) (now : Millis) : House :=
  ⟨true, zs, ls.map fun l => ⟨l, [], none, 0, 0, 0, 0⟩, true, some (now + 40)⟩

/-- The start of a program: its record, then the claims of its zones and the report (R88). -/
theorem ZoneStep.houseStart (p : Part) (zs : List ZoneNo) (ls : List LangNo) :
    ZoneStep { p with house := House.started zs ls p.now } (p.houseStart zs ls) :=
  (ZoneStep.foldl_handTracks zs _).trans (ReportStep.raise _ .system .house).toZone

/-- A change of the zone set: the new set, then the releases, the claims and the report (R89). -/
theorem ZoneStep.houseZones (p : Part) (zs : List ZoneNo) :
    ZoneStep { p with house := { p.house with zones := zs } } (p.houseZones zs) := by
  simp only [Part.houseZones]
  split
  · next same => subst same; exact ZoneStep.refl p
  · exact (ZoneStep.foldl_releaseTracks _ _).trans
      ((ZoneStep.foldl_handTracks _ _).trans (ReportStep.raise _ .system .house).toZone)

/-- The stop of a program: the releases, the IDLE record and the report (R90). -/
theorem ZoneStep.houseStop (p : Part) : ZoneStep { p with house := House.idle } p.houseStop :=
  ((ZoneStep.foldl_releaseTracks p.house.zones p).withHouse House.idle).trans
    (ReportStep.raise _ .system .house).toZone

/-- Settles O36: every check passes and the owner carries the command out, or the IDLE record refuses it. -/
theorem houseCommandsStartChangeAndStopTheProgram : Obligations.HouseCommandsStartChangeAndStopTheProgram := by
  refine ⟨fun s tag zs ls fz fl h hz hl enabled idle => ?start, fun s tag h => ⟨fun running =>
    ⟨fun zs fz hz => ?zones, ?stop⟩, fun idle => ⟨fun zs fz hz => ?zonesRefused, ?stopRefused⟩⟩⟩
  case start =>
    have allOn : (ls.any fun l => !s.part.langEnabled l) = false :=
      List.any_eq_false.mpr fun l listed => by simp [enabled l listed]
    obtain ⟨t, run, answered, part⟩ := exec_answered (i := .houseStart tag fz fl) h rfl
      (show ownHouseStart fz fl s.nv s.part = (s.part.houseStart zs ls,
          .reply .ok [fld "tracks" (numText ls.length), fld "placed" (zonesText (s.part.upZones zs))]) by
        simp [ownHouseStart, hz, hl, allOn, idle])
    have step := ZoneStep.houseStart s.part zs ls
    rw [← part] at step
    have house : t.part.house = House.started zs ls s.part.now := step.house_eq
    exact ⟨t, run, answered, house, by rw [house]; exact step⟩
  case zones =>
    exact exec_answered_step h rfl (by simp [ownHouseZones, hz, running]) (ZoneStep.houseZones s.part zs)
  case stop =>
    exact exec_answered_step h rfl (by simp [ownHouseStop, running]) (ZoneStep.houseStop s.part)
  case zonesRefused => exact exec_answered h rfl (by simp [ownHouseZones, hz, idle, refuse])
  case stopRefused => exact exec_answered h rfl (by simp [ownHouseStop, idle, refuse])

end Sys2Proof.Machine
end

section
/-! What the fault supervisor's and the issue controller's operations leave: the unit table, the retire list, and of
every bay all but what the provisioning engine, the bus and the displays change. -/

namespace Sys2Proof.Machine

/-! ### What the frames leave of the unit table, the retire list and the bays -/

theorem EngineStep.units_eq {p q : Part} (h : EngineStep p q) : q.units = p.units := by rw [h.1]

theorem EngineStep.retireList_eq {p q : Part} (h : EngineStep p q) : q.retireList = p.retireList := by rw [h.1]

theorem EngineStep.entry_eq {p q : Part} (h : EngineStep p q) (u : UnitId) : q.entry u = p.entry u := by
  simp only [Part.entry, Part.find, h.units_eq]

theorem AirStep.retireList_eq {p q : Part} (h : AirStep p q) : q.retireList = p.retireList := by rw [h]

theorem AirStep.bay_eq {p q : Part} (h : AirStep p q) (b : BayRef) : q.bay b = p.bay b := by rw [h]; rfl

@[simp] theorem Part.modBay_entry (p : Part) (b : BayRef) (f : Bay → Bay) (u : UnitId) :
    (p.modBay b f).entry u = p.entry u := rfl

/-! ### The steps of a settlement and of a job's end -/

/-- Step 4 of a settlement: the claim of a record that was not TAKEN (R181). -/
def Part.releaseHeld (p : Part) (o : Outcome) (x : Issue) : Part :=
  match o, x.tune with
  | .taken, _ => p
  | _, some t => p.releaseClaim t.tour
  | _, none => p

/-- Steps 5 and 6 of a settlement: the need that the outcome hands the record's bay, and the bay's standing (R181). -/
def Part.serveSettled (p : Part) (o : Outcome) (x : Issue) : Part :=
  match x.bay with
  | some b => ((if o.untunes x then (p.addUntune b).tryWork b else p)).readyEval b
  | none => p

/-- Step 7 of a settlement, and the freeing of a record of a disabled kind (R181, R188). -/
def Part.reportSettled (p : Part) (n : IssueNo) (o : Outcome) : Part :=
  if (p.raise (.issue n) o.event).profile.disabledKinds.contains o.event then
    (p.raise (.issue n) o.event).freeIssue n
  else p.raise (.issue n) o.event

theorem Part.settleEnd_eq (p : Part) (n : IssueNo) (o : Outcome) (x : Issue) :
    p.settleEnd n o x = ((p.releaseHeld o x).serveSettled o x).reportSettled n o := rfl

/-- Steps 1 and 2 of a job's end: the job leaves its channel and its bay (R167). -/
def Part.unbindJob (p : Part) (j : Job) (r : JobResult) : Part :=
  (p.dropJob j).modBay j.bay fun y => { y with job := none, lastJob := some ⟨j.number, j.work.kind, r⟩ }

/-- The end of a job that raises no fault, step by step (R167). -/
theorem Part.endJob_eq (p : Part) (j : Job) (r : JobResult) :
    p.endJob j r =
      (((((if j.work.urgent then (p.unbindJob j r).tuneEnded j.number r else p.unbindJob j r).kindEffects j
        r).tryWork j.bay).readyEval j.bay).raise (.bay j.bay) r.event) := by
  simp only [Part.endJob, Part.endJobWith, ite_self, Part.unbindJob]

/-! ### A settlement -/

/-- From `p` to `q` the unit table and the retire list stay, and so does every bay but for what the provisioning
engine, the bus and the displays change of it. -/
structure SettleStep (p q : Part) : Prop where
  units : q.units = p.units
  retireList : q.retireList = p.retireList
  bays : ∀ b, (q.bay b).still = (p.bay b).still

namespace SettleStep

theorem refl (p : Part) : SettleStep p p := ⟨rfl, rfl, fun _ => rfl⟩

theorem trans {p q r : Part} (h : SettleStep p q) (k : SettleStep q r) : SettleStep p r :=
  ⟨k.units.trans h.units, k.retireList.trans h.retireList, fun b => (k.bays b).trans (h.bays b)⟩

theorem foldl {α : Type} {f : Part → α → Part} (h : ∀ q a, SettleStep q (f q a)) (l : List α) (p : Part) :
    SettleStep p (l.foldl f p) := foldl_step refl trans h l p

theorem ofEngine {p q : Part} (h : EngineStep p q) : SettleStep p q := ⟨h.units_eq, h.retireList_eq, h.bay_still⟩

theorem raise (p : Part) (src : Source) (k : EventKind) : SettleStep p (p.raise src k) :=
  ofEngine (EngineStep.raise p src k)

theorem setIssue (p : Part) (n : IssueNo) (x : Issue) : SettleStep p (p.setIssue n x) := ⟨rfl, rfl, fun _ => rfl⟩

theorem modIssue (p : Part) (n : IssueNo) (f : Issue → Issue) : SettleStep p (p.modIssue n f) := setIssue p n _

theorem releaseClaim (p : Part) (t : TourNo) : SettleStep p (p.releaseClaim t) := by
  have step := ZoneStep.releaseClaim p t
  exact ⟨step.units_eq, step.toAir.retireList_eq, fun b => by rw [step.toAir.bay_eq]; rfl⟩

theorem enterPicking (p : Part) (n : IssueNo) : SettleStep p (p.enterPicking n) := by
  simp only [Part.enterPicking]
  refine trans ?_ (raise _ _ _)
  split
  · exact (setIssue p n _).trans (ofEngine (EngineStep.setPickMark _ _ _))
  · exact setIssue p n _

theorem settleBegin (p : Part) (n : IssueNo) (o : Outcome) : SettleStep p (p.settleBegin n o) := by
  simp only [Part.settleBegin]
  split
  · exact (setIssue p n _).trans (ofEngine (EngineStep.setPickMark _ _ _))
  · exact setIssue p n _

theorem releaseHeld (p : Part) (o : Outcome) (x : Issue) : SettleStep p (p.releaseHeld o x) := by
  unfold Part.releaseHeld
  split
  · exact refl p
  · exact releaseClaim p _
  · exact refl p

theorem serveSettled (p : Part) (o : Outcome) (x : Issue) : SettleStep p (p.serveSettled o x) := by
  unfold Part.serveSettled
  split
  · refine trans ?_ (ofEngine (EngineStep.readyEval _ _))
    split
    · exact ofEngine ((EngineStep.addUntune _ _).trans (EngineStep.tryWork _ _))
    · exact refl p
  · exact refl p

theorem reportSettled (p : Part) (n : IssueNo) (o : Outcome) : SettleStep p (p.reportSettled n o) := by
  unfold Part.reportSettled
  split
  · exact (raise _ _ _).trans (setIssue _ n _)
  · exact raise _ _ _

theorem settleEnd (p : Part) (n : IssueNo) (o : Outcome) (x : Issue) : SettleStep p (p.settleEnd n o x) := by
  rw [Part.settleEnd_eq]
  exact (releaseHeld p o x).trans ((serveSettled _ o x).trans (reportSettled _ n o))

theorem settlePlain (p : Part) (n : IssueNo) (o : Outcome) : SettleStep p (p.settlePlain n o) :=
  (settleBegin p n o).trans (settleEnd _ n o _)

theorem tuneEnded (p : Part) (number : Nat) (r : JobResult) : SettleStep p (p.tuneEnded number r) := by
  simp only [Part.tuneEnded]
  split
  · exact refl p
  · split
    · exact (modIssue p _ _).trans ((modIssue _ _ _).trans (enterPicking _ _))
    · exact (modIssue p _ _).trans (settlePlain _ _ _)
    · exact (modIssue p _ _).trans (settlePlain _ _ _)

/-! ### Jobs that end without being DONE (R167, R168) -/

theorem kindEffects (p : Part) (j : Job) {r : JobResult} (hr : r ≠ .done) : SettleStep p (p.kindEffects j r) := by
  unfold Part.kindEffects
  split
  · exact absurd rfl hr
  · exact ofEngine (EngineStep.modBay _ _ _ rfl)
  · exact refl p

theorem unbindJob (p : Part) (j : Job) (r : JobResult) : SettleStep p (p.unbindJob j r) :=
  ofEngine ((EngineStep.dropJob p j).trans (EngineStep.modBay _ _ _ rfl))

theorem endJob (p : Part) (j : Job) {r : JobResult} (hr : r ≠ .done) : SettleStep p (p.endJob j r) := by
  have tuned (q : Part) : SettleStep q (if j.work.urgent then q.tuneEnded j.number r else q) := by
    split
    · exact tuneEnded q _ r
    · exact refl q
  rw [Part.endJob_eq]
  refine (unbindJob p j r).trans ((tuned _).trans ((kindEffects _ j hr).trans ?_))
  exact ofEngine ((EngineStep.tryWork _ _).trans ((EngineStep.readyEval _ _).trans (EngineStep.raise _ _ _)))

theorem abortJob (p : Part) (j : Job) (r : AbortReason) : SettleStep p (p.endJob j (.aborted r)) :=
  endJob p j (by simp)

theorem abortBound (p : Part) (b : BayRef) (r : AbortReason) : SettleStep p (p.abortBound b r) :=
  foldl (fun q j => abortJob q j r) _ p

theorem settle (p : Part) (n : IssueNo) (o : Outcome) : SettleStep p (p.settle n o) := by
  simp only [Part.settle]
  refine trans (settleBegin p n o) (trans ?_ (settleEnd _ n o _))
  split
  · split
    · split
      · exact (abortJob _ _ _).trans (ofEngine (EngineStep.serveLeft _))
      · exact refl _
    · exact refl _
  · exact refl _

theorem failIssues (p : Part) (f : Issue → Bool) (r : IssueReason) : SettleStep p (p.failIssues f r) :=
  foldl (fun q n => settle q n _) _ p

end SettleStep

theorem SettleStep.entry_eq {p q : Part} (h : SettleStep p q) (u : UnitId) : q.entry u = p.entry u := by
  simp only [Part.entry, Part.find, h.units]

end Sys2Proof.Machine
end

section
/-! The change of a bay's record and the halt of its session. -/

namespace Sys2Proof.Machine

/-- A bay set to the record it holds. -/
@[simp] theorem Part.setBay_self (p : Part) (b : BayRef) : p.setBay b (p.bay b) = p := by
  have bays : (p.rack b.rack).setBay b.no (p.bay b) = p.rack b.rack := by
    simp [Rack.setBay, Part.bay, Rack.bay]
  have racks : p.setRack b.rack (p.rack b.rack) = p := by simp [Part.setRack, Part.rack]
  rw [Part.setBay, Part.modRack, bays, racks]

/-- Two changes of a bay are one. -/
theorem Part.modBay_modBay (p : Part) (b : BayRef) (f g : Bay → Bay) :
    (p.modBay b f).modBay b g = p.modBay b (g ∘ f) := by
  simp [Part.modBay, Part.setBay, Part.modRack, Part.setRack, Part.rack, Part.bay, Rack.setBay, Rack.bay]

/-- A bay's record once a fault or a retirement has halted its session (R114). -/
def Bay.halted (y : Bay) : Bay :=
  match y.session with
  | .charging | .topped => { y with session := .halted, watch := none, weak := .done }
  | _ => y

theorem Bay.halted_fault (y : Bay) : y.halted.fault = y.fault := by
  unfold Bay.halted
  split <;> rfl

/-- The halt of a session: the bay's record, then its charge-off order. -/
theorem EngineStep.haltSession (p : Part) (b : BayRef) : EngineStep (p.modBay b Bay.halted) (p.haltSession b) := by
  unfold Part.haltSession
  split
  · next h =>
    rw [show p.modBay b Bay.halted = p.modBay b fun y => { y with session := .halted, watch := none, weak := .done } by
      simp [Part.modBay, Bay.halted, h]]
    exact EngineStep.orderCharge _ _ _
  · next h =>
    rw [show p.modBay b Bay.halted = p.modBay b fun y => { y with session := .halted, watch := none, weak := .done } by
      simp [Part.modBay, Bay.halted, h]]
    exact EngineStep.orderCharge _ _ _
  · next charging topped =>
    have same : (p.bay b).halted = p.bay b := by
      unfold Bay.halted
      split
      · next h => exact absurd h charging
      · next h => exact absurd h topped
      · rfl
    rw [Part.modBay, same, Part.setBay_self]
    exact EngineStep.refl p

end Sys2Proof.Machine
end

section
/-! UNIT_RETIRE and RETIRE_PURGE: the retire list, and the entry that each leaves. -/

namespace Sys2Proof.Machine

/-! ### The retire list (R135) -/

/-- The retire list after an id is added: at the tail, once, while there is room. -/
def addRetired (l : List UnitId) (u : UnitId) : List UnitId :=
  if l.contains u = true then l else if l.length < 1024 then l ++ [u] else l

@[simp] theorem Part.listRetired_retireList (p : Part) (u : UnitId) :
    (p.listRetired u).retireList = addRetired p.retireList u := by
  unfold Part.listRetired addRetired
  split
  · rfl
  · split
    · next room => exact (if_pos room).symm
    · next full => exact (ReportStep.raiseWith _ _ _ _).toAir.retireList_eq.trans (if_neg full).symm

@[simp] theorem Part.listRetired_units (p : Part) (u : UnitId) : (p.listRetired u).units = p.units := by
  unfold Part.listRetired
  split
  · rfl
  · split
    · rfl
    · exact (ReportStep.raiseWith _ _ _ _).toZone.units_eq

@[simp] theorem Part.listRetired_entry (p : Part) (u v : UnitId) : (p.listRetired u).entry v = p.entry v := by
  simp only [Part.entry, Part.find, Part.listRetired_units]

@[simp] theorem Part.listRetired_bay (p : Part) (u : UnitId) (b : BayRef) : (p.listRetired u).bay b = p.bay b := by
  unfold Part.listRetired
  split
  · rfl
  · split
    · rfl
    · exact (ReportStep.raiseWith _ _ _ _).toAir.bay_eq b

theorem Part.listRetired_room {p : Part} {u : UnitId} (absent : p.retireList.contains u = false)
    (room : p.retireList.length < 1024) : (p.listRetired u).retireList = p.retireList ++ [u] := by
  rw [Part.listRetired_retireList, addRetired, absent, if_neg Bool.false_ne_true, if_pos room]

@[simp] theorem Part.unlistRetired_units (p : Part) (u : UnitId) : (p.unlistRetired u).units = p.units := by
  unfold Part.unlistRetired
  split <;> rfl

/-- Where an id is not listed there is nothing to take off. -/
@[simp] theorem Part.unlistRetired_retireList (p : Part) (u : UnitId) :
    (p.unlistRetired u).retireList = p.retireList.filter (· != u) := by
  unfold Part.unlistRetired
  split
  · rfl
  · next absent =>
    refine (List.filter_eq_self.mpr fun v listed => bne_iff_ne.mpr ?_).symm
    rintro rfl
    exact absent (List.contains_iff_mem.mpr listed)

@[simp] theorem Part.unlistRetired_entry (p : Part) (u v : UnitId) : (p.unlistRetired u).entry v = p.entry v := by
  simp only [Part.entry, Part.find, Part.unlistRetired_units]

/-! ### A retirement (R133) -/

@[simp] theorem Part.withdrawSource_units (p : Part) (u : UnitId) : (p.withdrawSource u).units = p.units := by
  simp only [Part.withdrawSource]
  split
  · rfl
  · next s _ =>
    obtain ⟨_, _, dropped⟩ := p.dropSource_tables s.tour (s.lang, u)
    rw [(ZoneStep.restream_raise _ _ _ _).units_eq]
    split
    · rw [(ReportStep.raise _ _ _).toZone.units_eq]
      exact dropped
    · exact dropped

@[simp] theorem Part.withdrawSource_entry (p : Part) (u v : UnitId) : (p.withdrawSource u).entry v = p.entry v := by
  simp only [Part.entry, Part.find, Part.withdrawSource_units]

/-- Steps 1 and 2 of a retirement: the flag and the list. -/
def Part.markRetired (p : Part) (u : UnitId) : Part :=
  (p.modEntry u fun e => { e with retired := true }).listRetired u

/-- Steps 3 to 6 of a retirement: the issue record, the notice, the assignment and the source. -/
def Part.dropHoldings (p : Part) (u : UnitId) : Part :=
  (((p.failIssues (·.unit == some u) .retired).endNotice u).unassign u).withdrawSource u

/-- A retirement of an entry not retired before, step by step. -/
theorem Part.retire_fresh {p : Part} {u : UnitId} {e : Entry} (he : p.entry u = some e) (fresh : e.retired = false) :
    p.retire u = (((p.markRetired u).dropHoldings u).retireWhere u).raiseUnit u .retired id := by
  simp only [Part.retire, he, fresh]
  rfl

theorem Part.markRetired_entry {p : Part} {u : UnitId} {e : Entry} (he : p.entry u = some e) :
    (p.markRetired u).entry u = some { e with retired := true } := by
  rw [Part.markRetired, Part.listRetired_entry,
    p.entry_modEntry_same u (f := fun e => { e with retired := true }) fun _ => rfl, he]
  rfl

theorem Part.dropHoldings_entry {p : Part} {u : UnitId} {e : Entry} (he : p.entry u = some e) :
    (p.dropHoldings u).entry u = some { e with notice := none, assignment := none } := by
  rw [Part.dropHoldings, Part.withdrawSource_entry, Part.unassign_entry, Part.endNotice_entry,
    (SettleStep.failIssues p _ _).entry_eq, he]
  rfl

/-- What an entry ON_AIR is sent and the halt of a DOCKED entry's session leave of the entry. -/
theorem Part.retireWhere_entry {p : Part} {u : UnitId} {e : Entry} (he : p.entry u = some e) :
    ∃ d, (p.retireWhere u).entry u = some d ∧ d.retired = e.retired ∧ d.assignment = e.assignment := by
  simp only [Part.retireWhere, he]
  split
  · exact ⟨_, Part.raiseNotice_entry he .untune none false, rfl, rfl⟩
  · next b _ _ =>
    have halt := (EngineStep.haltSession p b).trans (EngineStep.readyEval _ b)
    exact ⟨e, (halt.entry_eq u).trans he, rfl, rfl⟩
  · exact ⟨e, he, rfl, rfl⟩

theorem Part.retireWhere_retireList (p : Part) (u : UnitId) : (p.retireWhere u).retireList = p.retireList := by
  unfold Part.retireWhere
  split
  · rfl
  · split
    · exact (AirStep.raiseNotice _ _ _ _ _).retireList_eq
    · exact ((EngineStep.haltSession p _).trans (EngineStep.readyEval _ _)).retireList_eq
    · rfl

theorem Part.dropHoldings_retireList (p : Part) (u : UnitId) : (p.dropHoldings u).retireList = p.retireList :=
  ((AirStep.endNotice _ u).trans ((AirStep.unassign _ u).trans (AirStep.withdrawSource _ u))).retireList_eq.trans
    (SettleStep.failIssues p _ _).retireList

/-- A retirement of an entry not retired before leaves it retired and without an assignment. -/
theorem Part.retire_fresh_entry {p : Part} {u : UnitId} {e : Entry} (he : p.entry u = some e)
    (fresh : e.retired = false) :
    ∃ d, (p.retire u).entry u = some d ∧ d.retired = true ∧ d.assignment = none := by
  obtain ⟨d, hd, retired, assignment⟩ :=
    Part.retireWhere_entry (Part.dropHoldings_entry (Part.markRetired_entry he))
  refine ⟨d, ?_, retired, assignment⟩
  rw [Part.retire_fresh he fresh, (ReportStep.raiseUnit _ _ _ _).entry_eq, hd]

/-- A retirement of an entry retired before leaves the unit table. -/
theorem Part.retire_again_entry {p : Part} {u : UnitId} {e : Entry} (he : p.entry u = some e)
    (again : e.retired = true) : (p.retire u).entry u = some e := by
  simp only [Part.retire, he, again, if_true, (ReportStep.raiseUnit _ _ _ _).entry_eq]
  split <;> simp [he]

/-- Every retirement puts the id on the list, when it has room. -/
theorem Part.retire_retireList {p : Part} {u : UnitId} {e : Entry} (he : p.entry u = some e) :
    (p.retire u).retireList = addRetired p.retireList u := by
  cases hr : e.retired with
  | false =>
    rw [Part.retire_fresh he hr, (ReportStep.raiseUnit _ _ _ _).toAir.retireList_eq, Part.retireWhere_retireList,
      Part.dropHoldings_retireList, Part.markRetired, Part.listRetired_retireList]
    rfl
  | true =>
    simp only [Part.retire, he, hr, if_true, (ReportStep.raiseUnit _ _ _ _).toAir.retireList_eq]
    split <;> simp

/-- A retirement leaves the unit's entry retired: one not retired before without its assignment, another as it was. -/
theorem Part.retire_entry {p : Part} {u : UnitId} {e : Entry} (he : p.entry u = some e) :
    ∃ d, (p.retire u).entry u = some d ∧ d.retired = true ∧ (e.retired = false → d.assignment = none) ∧
      (e.retired = true → d = e) := by
  cases hr : e.retired with
  | false =>
    obtain ⟨d, hd, retired, assignment⟩ := Part.retire_fresh_entry he hr
    exact ⟨d, hd, retired, fun _ => assignment, nofun⟩
  | true => exact ⟨e, Part.retire_again_entry he hr, hr, nofun, fun _ => rfl⟩

/-- Settles O29: by what a retirement makes of the entry and of the list, and by the three answers for an id without
an entry. -/
theorem unitRetireSetsTheFlagAndLists : Obligations.UnitRetireSetsTheFlagAndLists := by
  intro s tag u h hu
  refine ⟨fun i e found => ?entry, fun absent => ⟨fun listed => ?listed, fun unlisted full => ?full,
    fun unlisted room => ?room⟩⟩
  case entry =>
    have he : s.part.entry u = some e := by rw [Part.entry, found]; rfl
    have fin := EngineStep.finish s.nv (s.part.retire u)
    obtain ⟨d, hd, retired, fresh, again⟩ := Part.retire_entry he
    obtain ⟨t, run, answered, part⟩ := exec_answered (i := .unitRetire tag (.val u)) h rfl
      (show ownUnitRetire (.val u) s.nv s.part = ((s.part.retire u).finish s.nv, .reply .ok
          [fld "listed" (bit (((s.part.retire u).finish s.nv).retireList.contains u)), fld "index" (numText i)]) by
        simp [ownUnitRetire, hu, found])
    rw [← part] at fin answered
    exact ⟨t, d, run, answered, (fin.entry_eq u).trans hd, retired, fresh, again,
      fin.retireList_eq.trans (Part.retire_retireList he), (RackStep.retire _ u).trans fin.toRack⟩
  case listed =>
    exact exec_answered h rfl (by simp only [ownUnitRetire, unitField_val hu, absent, listed, if_true]; rfl)
  case full =>
    exact exec_answered h rfl
      (by simp only [ownUnitRetire, unitField_val hu, absent, unlisted, Config.retireListSize, full]; rfl)
  case room =>
    have list := Part.listRetired_room unlisted room
    have fin := EngineStep.finish s.nv (s.part.listRetired u)
    have listed : ((s.part.listRetired u).finish s.nv).retireList.contains u = true := by
      rw [fin.retireList_eq, list]; simp
    obtain ⟨t, run, answered, part⟩ := exec_answered (i := .unitRetire tag (.val u)) h rfl
      (show ownUnitRetire (.val u) s.nv s.part = ((s.part.listRetired u).finish s.nv, .reply .ok
          [fld "listed" (bit true), fld "index" dash]) by
        have notFull : ¬Config.retireListSize ≤ s.part.retireList.length := Nat.not_le_of_lt room
        simp only [ownUnitRetire, unitField_val hu, absent, unlisted, listed, Bool.false_eq_true, if_false,
          if_neg notFull])
    rw [← part] at fin
    exact ⟨t, run, answered, fin.retireList_eq.trans list, fin.units_eq.trans (Part.listRetired_units _ u),
      (RackStep.listRetired _ u).trans fin.toRack⟩

/-! ### RETIRE_PURGE (R136) -/

/-- Without an entry nothing changes; otherwise a bay's release mark is set or the entry's flag clears. -/
theorem Part.purgeEntry_cases (p : Part) (u : UnitId) :
    (p.purgeEntry u).1 = p ∨ (∃ b, (p.purgeEntry u).1 = p.modBay b fun y => { y with release := true }) ∨
      (p.purgeEntry u).1 = p.modEntry u fun e => { e with retired := false } := by
  unfold Part.purgeEntry
  split
  · exact .inl rfl
  · split
    · exact .inr (.inl ⟨_, rfl⟩)
    · exact .inr (.inr rfl)

theorem Part.purgeEntry_retireList (p : Part) (u : UnitId) : (p.purgeEntry u).1.retireList = p.retireList := by
  obtain same | ⟨b, marked⟩ | cleared := p.purgeEntry_cases u
  · rw [same]
  · rw [marked, Part.modBay_retireList]
  · rw [cleared, Part.modEntry_retireList]

theorem RackStep.purgeEntry (p : Part) (u : UnitId) : RackStep p (p.purgeEntry u).1 := by
  obtain same | ⟨b, marked⟩ | cleared := p.purgeEntry_cases u
  · rw [same]; exact RackStep.refl p
  · rw [marked]; exact RackStep.modBay _ _ _
  · rw [cleared]; exact RackStep.modEntry _ _ _

theorem Part.purgeEntry_other (p : Part) {u v : UnitId} (hv : v ≠ u) : (p.purgeEntry u).1.entry v = p.entry v := by
  obtain same | ⟨b, marked⟩ | cleared := p.purgeEntry_cases u
  · rw [same]
  · rw [marked, Part.modBay_entry]
  · rw [cleared, p.entry_modEntry u v (f := fun e => { e with retired := false }) fun _ => rfl]
    simp [hv]

/-- The flag of an entry that is not DOCKED clears now. -/
theorem Part.purgeEntry_undocked {p : Part} {u : UnitId} {e : Entry} (he : p.entry u = some e)
    (undocked : e.state ≠ .docked) : (p.purgeEntry u).1 = p.modEntry u fun e => { e with retired := false } := by
  simp only [Part.purgeEntry, he]
  split
  · next docked _ => exact absurd docked undocked
  · rfl

/-- A DOCKED entry keeps its flag, its bay's release mark being set. -/
theorem Part.purgeEntry_docked {p : Part} {u : UnitId} {e : Entry} {b : BayRef} (he : p.entry u = some e)
    (docked : e.state = .docked) (hb : e.bay = some b) :
    (p.purgeEntry u).1 = p.modBay b fun y => { y with release := true } := by
  simp only [Part.purgeEntry, he, docked, hb]

/-- Settles O30: the id leaves the list, and the entry changes as its state says. -/
theorem retirePurgeClearsTheFlag : Obligations.RetirePurgeClearsTheFlag := by
  intro s tag u h hu held
  have fin := EngineStep.finish s.nv ((s.part.unlistRetired u).purgeEntry u).1
  obtain ⟨t, run, answered, part⟩ := exec_answered (i := .retirePurge tag (.val u)) h rfl
    (show ownRetirePurge (.val u) s.nv s.part = (((s.part.unlistRetired u).purgeEntry u).1.finish s.nv, .reply .ok
        [fld "listed" (bit (s.part.retireList.contains u)),
         fld "cleared" ((s.part.unlistRetired u).purgeEntry u).2]) by
      simp only [ownRetirePurge, unitField_val hu]
      refine if_neg fun unknown => ?_
      obtain listed | ⟨e, he, retired⟩ := held
      · simp only [listed, Bool.not_true, Bool.false_and, Bool.false_eq_true] at unknown
      · simp only [he, retired, Bool.not_true, Bool.and_false, Bool.false_eq_true] at unknown)
  rw [← part] at fin
  refine ⟨t, _, run, answered, ?list, fun e he undocked => ?now, fun e b he docked hb => ?atRemoval,
    fun v hv => ?others, ?frame⟩
  case list => rw [fin.retireList_eq, Part.purgeEntry_retireList, Part.unlistRetired_retireList]
  case now =>
    have kept := (s.part.unlistRetired_entry u u).trans he
    rw [fin.entry_eq, Part.purgeEntry_undocked kept undocked,
      Part.entry_modEntry_same _ u (f := fun e => { e with retired := false }) fun _ => rfl, kept]
    rfl
  case atRemoval =>
    have kept := (s.part.unlistRetired_entry u u).trans he
    rw [Part.purgeEntry_docked kept docked hb] at fin
    refine ⟨(fin.entry_eq u).trans kept, (congrArg Bay.release (fin.bay_still b)).trans ?_⟩
    rw [Part.bay_modBay_same]
    rfl
  case others => rw [fin.entry_eq, Part.purgeEntry_other _ hv, Part.unlistRetired_entry]
  case frame => exact (RackStep.unlistRetired _ u).trans ((RackStep.purgeEntry _ u).trans fin.toRack)

end Sys2Proof.Machine
end

section
/-! FAULT_CLEAR, and the start of a session that it brings. -/

namespace Sys2Proof.Machine

/-! ### The start of a session (R111) -/

/-- A bay's record as a session starts in it: a session that charges takes its start, watch and weak check. -/
def Part.startedBay (p : Part) (b : BayRef) (y : Bay) : Bay :=
  match (p.sessionChoice b).1 with
  | .charging =>
    { y with identified := false, session := .charging, sessionStart := some p.now, startLevel := none, bounces := 0
             watch := some (p.now + 60000 * p.profile.chargeLimit), weak := .pending p.profile.weakWindow }
  | c => { y with identified := false, session := c }

theorem Part.startedBay_session (p : Part) (b : BayRef) (y : Bay) :
    (p.startedBay b y).session = (p.sessionChoice b).1 := by
  unfold Part.startedBay
  split
  · next h => exact h.symm
  · rfl

/-- What the start of a session leaves of the fault supervisor's items. -/
theorem Part.startedBay_faultItems (p : Part) (b : BayRef) (y : Bay) :
    (p.startedBay b y).fault = y.fault ∧ (p.startedBay b y).strikes = y.strikes ∧
      (p.startedBay b y).release = y.release := by
  unfold Part.startedBay
  split <;> exact ⟨rfl, rfl, rfl⟩

/-- The start of a session: the bay's record, then its charge order, its standing and an IDENTIFY. -/
theorem EngineStep.sessionStart (p : Part) (b : BayRef) :
    EngineStep (p.modBay b (p.startedBay b)) (p.sessionStart b) := by
  have asked (q : Part) (on : Bool) : EngineStep q (if on then (q.readyEval b).requestIdentify b else q.readyEval b) := by
    split
    · exact (EngineStep.readyEval q b).trans (EngineStep.requestIdentify _ b)
    · exact EngineStep.readyEval q b
  simp only [Part.sessionStart]
  refine EngineStep.trans ?_ (asked _ _)
  cases choice : (p.sessionChoice b).1 with
  | charging =>
    rw [Part.modBay_modBay]
    simpa only [Part.modBay, Part.setBay_now, Part.setBay_profile, Part.startedBay, choice, Function.comp] using
      EngineStep.orderCharge (p.modBay b (p.startedBay b)) b true
  | none | topped | halted =>
    simpa only [Part.modBay, Part.startedBay, choice] using
      EngineStep.orderCharge (p.modBay b (p.startedBay b)) b false

/-! ### FAULT_CLEAR (R131) -/

/-- A session start in an enabled bay without a fault record charges, but for a retired occupant (R111). -/
theorem Part.sessionChoice_faultless {p : Part} {b : BayRef} (enabled : (p.bay b).enable = true)
    (clear : (p.bay b).fault = none) :
    (p.sessionChoice b).1 =
      if (p.occupantEntry b).map (·.retired) = some true then .halted else .charging := by
  cases hl : p.listedIn b with
  | none => simp [Part.sessionChoice, Part.occupantEntry, enabled, clear, hl]
  | some u =>
    cases he : p.entry u with
    | none => simp [Part.sessionChoice, Part.occupantEntry, enabled, clear, hl, he]
    | some e => cases hr : e.retired <;> simp [Part.sessionChoice, Part.occupantEntry, enabled, clear, hl, he, hr]

/-- The part without the fault record of a bay, its clearing reported. -/
def Part.unfaulted (p : Part) (b : BayRef) : Part :=
  (p.modBay b fun y => { y with fault := none }).raise (.bay b) .faultCleared

@[simp] theorem Part.raise_bay (p : Part) (src : Source) (k : EventKind) (b : BayRef) :
    (p.raise src k).bay b = p.bay b := (ReportStep.raise p src k).toAir.bay_eq b

@[simp] theorem Part.unfaulted_bay_same (p : Part) (b : BayRef) :
    (p.unfaulted b).bay b = { p.bay b with fault := none } := by
  rw [Part.unfaulted, Part.raise_bay, Part.bay_modBay_same]

theorem Part.unfaulted_bay_other (p : Part) {b d : BayRef} (hd : d ≠ b) : (p.unfaulted b).bay d = p.bay d := by
  rw [Part.unfaulted, Part.raise_bay, Part.bay_modBay_other _ _ _ _ hd]

@[simp] theorem Part.unfaulted_units (p : Part) (b : BayRef) : (p.unfaulted b).units = p.units :=
  (ReportStep.raise _ _ _).toZone.units_eq

theorem RackStep.unfaulted (p : Part) (b : BayRef) : RackStep p (p.unfaulted b) :=
  (RackStep.modBay p b _).trans (RackStep.raise _ _ _)

theorem RackStep.rack_state {p q : Part} (h : RackStep p q) (r : RackNo) : (q.rack r).state = (p.rack r).state :=
  (congrArg Rack.state (h.rack_shell r)).trans rfl

@[simp] theorem Part.unfaulted_occupantEntry (p : Part) (b : BayRef) :
    (p.unfaulted b).occupantEntry b = p.occupantEntry b := by
  have entry : (p.unfaulted b).entry = p.entry := by
    funext u
    simp only [Part.entry, Part.find, Part.unfaulted_units]
  simp only [Part.occupantEntry, Part.listedIn, Part.unfaulted_bay_same, entry]

/-- A session starts in a bay whose fault record is cleared (R131). -/
abbrev Part.startsCleared (p : Part) (b : BayRef) : Prop :=
  (p.rack b.rack).state = .online ∧ (p.bay b).enable = true ∧ (p.bay b).occupant.isSome = true

/-- The clearing with a session start. -/
theorem EngineStep.clearFault_starts {p : Part} {b : BayRef} (starts : p.startsCleared b) :
    EngineStep ((p.unfaulted b).modBay b ((p.unfaulted b).startedBay b)) (p.clearFault b) := by
  have starts' : (p.unfaulted b).startsCleared b := by
    rw [Part.startsCleared, (RackStep.unfaulted p b).rack_state, Part.unfaulted_bay_same]; exact starts
  have run : p.clearFault b = ((p.unfaulted b).sessionStart b).readyEval b :=
    congrArg (Part.readyEval · b) (if_pos starts')
  rw [run]
  exact (EngineStep.sessionStart _ b).trans (EngineStep.readyEval _ b)

/-- The clearing without a session start. -/
theorem EngineStep.clearFault_rests {p : Part} {b : BayRef} (rests : ¬ p.startsCleared b) :
    EngineStep (p.unfaulted b) (p.clearFault b) := by
  have rests' : ¬ (p.unfaulted b).startsCleared b := by
    rw [Part.startsCleared, (RackStep.unfaulted p b).rack_state, Part.unfaulted_bay_same]; exact rests
  have run : p.clearFault b = (p.unfaulted b).readyEval b := congrArg (Part.readyEval · b) (if_neg rests')
  rw [run]
  exact EngineStep.readyEval _ b

/-- The clearing of a fault record makes of the bay `f` of its record without the fault, whether a session starts or
not, and beside it only what the engine changes. -/
theorem Part.clearFault_bay (p : Part) (b : BayRef) :
    ∃ f : Bay → Bay, EngineStep ((p.unfaulted b).modBay b f) (p.clearFault b) ∧
      (∀ y, (f y).fault = y.fault ∧ (f y).strikes = y.strikes ∧ (f y).release = y.release) ∧
      (¬ p.startsCleared b → f = id) ∧ (p.startsCleared b → f = (p.unfaulted b).startedBay b) := by
  by_cases starts : p.startsCleared b
  · exact ⟨_, EngineStep.clearFault_starts starts, Part.startedBay_faultItems _ b, fun rests => absurd starts rests,
      fun _ => rfl⟩
  · refine ⟨id, ?_, fun _ => ⟨rfl, rfl, rfl⟩, fun _ => rfl, fun s => absurd s starts⟩
    rw [Part.modBay, id, Part.setBay_self]
    exact EngineStep.clearFault_rests starts

/-- Settles O41: the record goes, a session starts or rests, and the end of the event leaves the bay's standing. -/
theorem faultClearClearsTheRecord : Obligations.FaultClearClearsTheRecord := by
  intro s tag b h present faulted
  have held : (s.part.bay b).fault.isNone = false := by rw [← Option.not_isSome, faulted]; rfl
  obtain ⟨t, run, answered, part⟩ := exec_answered (i := .faultClear tag (.val ⟨b.rack.val, b.no.val + 1⟩)) h rfl
    (show ownFaultClear (.val ⟨b.rack.val, b.no.val + 1⟩) s.nv s.part = ((s.part.clearFault b).finish s.nv, .reply .ok
        [fld "session" (sessionText (((s.part.clearFault b).finish s.nv).bay b).session)]) by
      simp [ownFaultClear, present, held])
  obtain ⟨f, cleared, faultItems, rests, starts⟩ := s.part.clearFault_bay b
  have step := cleared.trans (EngineStep.finish s.nv _)
  rw [← part] at step answered
  have still : (t.part.bay b).still = (f { s.part.bay b with fault := none }).still := by
    rw [step.bay_still, Part.bay_modBay_same, Part.unfaulted_bay_same]
  obtain ⟨fault, strikes, release⟩ := faultItems { s.part.bay b with fault := none }
  refine ⟨t, run, answered, (congrArg Bay.fault still).trans fault, (congrArg Bay.strikes still).trans strikes,
    (congrArg Bay.release still).trans release, step.units_eq.trans (Part.unfaulted_units _ b), fun hr => ?rest,
    fun online enabled occupied => ?start, fun d hd => ?others, ?frame⟩
  case rest =>
    rw [rests hr] at still
    exact (congrArg Bay.session still).trans rfl
  case start =>
    rw [starts ⟨online, enabled, occupied⟩] at still
    have session : (t.part.bay b).session = ((s.part.unfaulted b).sessionChoice b).1 :=
      (congrArg Bay.session still).trans (Part.startedBay_session _ b _)
    rw [session, Part.sessionChoice_faultless (by simpa using enabled) (by simp), Part.unfaulted_occupantEntry]
  case others => rw [step.bay_still, Part.bay_modBay_other _ _ _ _ hd, Part.unfaulted_bay_other _ hd]
  case frame => exact (RackStep.unfaulted _ b).trans ((RackStep.modBay _ b f).trans step.toRack)

end Sys2Proof.Machine
end

section
/-! CHARGE_WATCH_EXPIRY, and the fault occurrence that it brings: the record and the halted session stand through the
rest of the occurrence. -/

namespace Sys2Proof.Machine

/-! ### A halted session stands -/

/-- From `p` to `q` the fault record and the watch of a bay with a halted session stay, and its session stays
halted. -/
def HaltStands (b : BayRef) (p q : Part) : Prop :=
  (p.bay b).session = .halted →
    (q.bay b).session = .halted ∧ (q.bay b).fault = (p.bay b).fault ∧ (q.bay b).watch = (p.bay b).watch

namespace HaltStands

variable {b : BayRef}

theorem refl (p : Part) : HaltStands b p p := fun h => ⟨h, rfl, rfl⟩

theorem trans {p q r : Part} (h : HaltStands b p q) (k : HaltStands b q r) : HaltStands b p r := fun halted => by
  obtain ⟨session, fault, watch⟩ := h halted
  obtain ⟨session', fault', watch'⟩ := k session
  exact ⟨session', fault'.trans fault, watch'.trans watch⟩

theorem ofStill {p q : Part} (h : (q.bay b).still = (p.bay b).still) : HaltStands b p q := fun halted =>
  ⟨(congrArg Bay.session h).trans halted, (congrArg Bay.fault h).trans rfl, (congrArg Bay.watch h).trans rfl⟩

theorem ofBay {p q : Part} (h : q.bay b = p.bay b) : HaltStands b p q := ofStill (congrArg Bay.still h)

theorem ofEngine {p q : Part} (h : EngineStep p q) : HaltStands b p q := ofStill (h.bay_still b)

theorem ofSettle {p q : Part} (h : SettleStep p q) : HaltStands b p q := ofStill (h.bays b)

theorem ofAir {p q : Part} (h : AirStep p q) : HaltStands b p q := ofBay (h.bay_eq b)

/-- A halted session is not halted again, and the halt of another bay's leaves this bay. -/
theorem haltSession (p : Part) (d : BayRef) : HaltStands b p (p.haltSession d) := by
  by_cases hd : b = d
  · subst hd
    intro halted
    have same : p.haltSession b = p := by simp only [Part.haltSession, halted]
    rw [same]
    exact ⟨halted, rfl, rfl⟩
  · refine trans (ofBay ?_) (ofEngine (EngineStep.haltSession p d))
    exact Part.bay_modBay_other p d b _ hd

/-- The release mark is no part of what stands. -/
theorem clearRelease (p : Part) (d : BayRef) : HaltStands b p (p.modBay d fun y => { y with release := false }) := by
  intro halted
  by_cases hd : b = d
  · subst hd
    rw [Part.bay_modBay_same]
    exact ⟨halted, rfl, rfl⟩
  · rw [Part.bay_modBay_other _ _ _ _ hd]
    exact ⟨halted, rfl, rfl⟩

theorem listRetired (p : Part) (u : UnitId) : HaltStands b p (p.listRetired u) := ofBay (p.listRetired_bay u b)

theorem markRetired (p : Part) (u : UnitId) : HaltStands b p (p.markRetired u) :=
  (ofAir (AirStep.modEntry p u _)).trans (listRetired _ u)

theorem dropHoldings (p : Part) (u : UnitId) : HaltStands b p (p.dropHoldings u) :=
  (ofSettle (SettleStep.failIssues p _ _)).trans
    (ofAir ((AirStep.endNotice _ u).trans ((AirStep.unassign _ u).trans (AirStep.withdrawSource _ u))))

theorem retireWhere (p : Part) (u : UnitId) : HaltStands b p (p.retireWhere u) := by
  unfold Part.retireWhere
  split
  · exact refl p
  · split
    · exact ofAir (AirStep.raiseNotice p u _ _ _)
    · exact (haltSession p _).trans (ofEngine (EngineStep.readyEval _ _))
    · exact refl p

theorem raiseUnit (p : Part) (u : UnitId) (k : EventKind) (att : Attached → Attached) :
    HaltStands b p (p.raiseUnit u k att) := ofAir (ReportStep.raiseUnit p u k att).toAir

theorem retire (p : Part) (u : UnitId) : HaltStands b p (p.retire u) := by
  cases he : p.entry u with
  | none => simp only [Part.retire, he]; exact refl p
  | some e =>
    cases hr : e.retired with
    | false =>
      rw [Part.retire_fresh he hr]
      exact (markRetired p u).trans ((dropHoldings _ u).trans ((retireWhere _ u).trans (raiseUnit _ u _ _)))
    | true =>
      simp only [Part.retire, he, hr, if_true]
      refine trans ?_ (raiseUnit _ u _ _)
      split
      · exact (listRetired p u).trans (clearRelease _ _)
      · exact listRetired p u

theorem countFault (p : Part) (c : FaultClass) (u : UnitId) : HaltStands b p (p.countFault c u) := by
  simp only [Part.countFault]
  have counted := ofAir (b := b) (AirStep.modEntry p u fun e =>
    { e with faults := e.faults.set (faultIdx c) (min (e.faults[faultIdx c] + 1) 15) })
  split
  · split
    · exact counted.trans (retire _ u)
    · exact counted
  · exact counted

end HaltStands

/-! ### A fault occurrence (R127) -/

theorem mem_addClass (c : FaultClass) (l : List FaultClass) : c ∈ addClass c l := by
  have listed : c ∈ allFaultClasses := by cases c <;> decide
  simp [addClass, listed]

/-- The record of an occurrence holds its class. -/
theorem Part.mem_faultRecord (p : Part) (c : FaultClass) (o : Occupant) (f : Option FaultRecord) :
    c ∈ (p.faultRecord c o f).classes := by
  cases f with
  | none => exact List.mem_singleton_self c
  | some f => exact mem_addClass c f.classes

/-- Steps 1 and 2 of an occurrence: the record, and the halt of the session. -/
def Part.faultHalt (p : Part) (c : FaultClass) (b : BayRef) (o : Occupant) : Part :=
  (p.modBay b fun y => { y with fault := some (p.faultRecord c o y.fault) }).haltSession b

/-- Steps 3 to 5 of an occurrence: the issue record, the job and the count. -/
def Part.faultEffects (p : Part) (c : FaultClass) (b : BayRef) (o : Occupant) : Part :=
  let p := if o.listed then p.failIssues (·.unit == some o.unit) .fault else p
  let p := (p.emptyNeeds b).abortBound b .faultAbort
  if o.listed then p.countFault c o.unit else p

/-- An occurrence of a class other than CONTACT, step by step. -/
theorem Part.faultOccur_eq {p : Part} {c : FaultClass} {b : BayRef} {o : Occupant}
    (ho : (p.bay b).occupant = some o) (hc : c ≠ .contact) :
    p.faultOccur c b = (((p.faultHalt c b o).faultEffects c b o).readyEval b).raiseWith (.bay b) .fault fun a =>
      { a with newFaults := addClass c a.newFaults } := by
  simp only [Part.faultOccur, ho, hc, if_false]
  rfl

theorem HaltStands.faultEffects {b : BayRef} (p : Part) (c : FaultClass) (o : Occupant) :
    HaltStands b p (p.faultEffects c b o) := by
  have failed (q : Part) :
      HaltStands b q (if o.listed then q.failIssues (·.unit == some o.unit) .fault else q) := by
    split
    · exact ofSettle (SettleStep.failIssues q _ _)
    · exact refl q
  have counted (q : Part) : HaltStands b q (if o.listed then q.countFault c o.unit else q) := by
    split
    · exact countFault q c _
    · exact refl q
  have aborted (q : Part) : HaltStands b q ((q.emptyNeeds b).abortBound b .faultAbort) :=
    (ofEngine (EngineStep.emptyNeeds q b)).trans (ofSettle (SettleStep.abortBound _ b _))
  exact (failed p).trans ((aborted _).trans (counted _))

theorem Bay.halted_of_running {y : Bay} (h : y.session = .charging ∨ y.session = .topped) :
    y.halted.session = .halted ∧ y.halted.watch = none := by
  obtain charging | topped := h
  · simp [Bay.halted, charging]
  · simp [Bay.halted, topped]

/-- The record taken and the session halted. -/
theorem Part.faultHalt_bay {p : Part} {b : BayRef} (c : FaultClass) (o : Occupant)
    (running : (p.bay b).session = .charging ∨ (p.bay b).session = .topped) :
    ((p.faultHalt c b o).bay b).session = .halted ∧
      ((p.faultHalt c b o).bay b).fault = some (p.faultRecord c o (p.bay b).fault) ∧
      ((p.faultHalt c b o).bay b).watch = none := by
  have still := (EngineStep.haltSession
    (p.modBay b fun y => { y with fault := some (p.faultRecord c o y.fault) }) b).bay_still b
  rw [Part.bay_modBay_same, Part.bay_modBay_same] at still
  obtain ⟨session, watch⟩ := Bay.halted_of_running
    (y := { p.bay b with fault := some (p.faultRecord c o (p.bay b).fault) }) running
  exact ⟨(congrArg Bay.session still).trans session, (congrArg Bay.fault still).trans (Bay.halted_fault _),
    (congrArg Bay.watch still).trans watch⟩

/-- An occurrence of a class other than CONTACT in a running session leaves its record and the session halted. -/
theorem Part.faultOccur_bay {p : Part} {c : FaultClass} {b : BayRef} {o : Occupant}
    (ho : (p.bay b).occupant = some o) (hc : c ≠ .contact)
    (running : (p.bay b).session = .charging ∨ (p.bay b).session = .topped) :
    ((p.faultOccur c b).bay b).session = .halted ∧
      ((p.faultOccur c b).bay b).fault = some (p.faultRecord c o (p.bay b).fault) ∧
      ((p.faultOccur c b).bay b).watch = none := by
  obtain ⟨session, fault, watch⟩ := Part.faultHalt_bay c o running
  have stands : HaltStands b (p.faultHalt c b o) (p.faultOccur c b) := by
    rw [Part.faultOccur_eq ho hc]
    exact (HaltStands.faultEffects _ c o).trans ((HaltStands.ofEngine (EngineStep.readyEval _ b)).trans
      (HaltStands.ofAir (ReportStep.raiseWith _ _ _ _).toAir))
  obtain ⟨session', fault', watch'⟩ := stands session
  exact ⟨session', fault'.trans fault, watch'.trans watch⟩

/-! ### CHARGE_WATCH_EXPIRY (R124) -/

/-- The part at the expiry of a bay's watch, which is stopped. -/
def Part.watchStopped (p : Part) (b : BayRef) (d : Millis) : Part :=
  (p.reach d).modBay b fun y => { y with watch := none }

theorem Part.watchStopped_bay (p : Part) (b : BayRef) (d : Millis) :
    (p.watchStopped b d).bay b = { p.bay b with watch := none } := Part.bay_modBay_same _ b _

theorem RackStep.watchStopped (p : Part) (b : BayRef) (d : Millis) :
    RackStep { p with now := max p.now d } (p.watchStopped b d) := RackStep.modBay _ b _

theorem Part.watchExpiry_charging {p : Part} {b : BayRef} {d : Millis} (hd : (p.bay b).watch = some d)
    (charging : (p.bay b).session = .charging) : p.watchExpiry b = (p.watchStopped b d).faultOccur .slow b := by
  have charging' : ((p.watchStopped b d).bay b).session = .charging := by rw [Part.watchStopped_bay]; exact charging
  simp only [Part.watchExpiry, hd]
  exact if_pos charging'

theorem Part.watchExpiry_other {p : Part} {b : BayRef} {d : Millis} (hd : (p.bay b).watch = some d)
    (other : (p.bay b).session ≠ .charging) : p.watchExpiry b = p.watchStopped b d := by
  have other' : ((p.watchStopped b d).bay b).session ≠ .charging := by rw [Part.watchStopped_bay]; exact other
  simp only [Part.watchExpiry, hd]
  exact if_neg other'

/-- Settles O47: the occurrence halts the session, and nothing after it in the event starts one; without an occurrence
the watch alone stops. -/
theorem chargeWatchExpiryRaisesSlow : Obligations.ChargeWatchExpiryRaisesSlow := by
  intro s b d h hd
  obtain ⟨t, run, after, reported⟩ := exec_partEvent (i := .chargeWatchExpiry b) h rfl
  have fin : EngineStep (s.part.watchExpiry b) t.part := (EngineStep.finish s.nv _).trans reported.toEngine
  have still := fin.bay_still b
  refine ⟨fun charging occupied => ?slow, fun other => ?stopped⟩
  case slow =>
    obtain ⟨o, ho⟩ := Option.isSome_iff_exists.mp occupied
    have bay := s.part.watchStopped_bay b d
    obtain ⟨session, fault, watch⟩ := Part.faultOccur_bay (p := s.part.watchStopped b d) (c := .slow) (b := b) (o := o)
      (by rw [bay]; exact ho) (by decide) (by rw [bay]; exact .inl charging)
    rw [Part.watchExpiry_charging hd charging] at still fin
    exact ⟨t, _, run, after, (congrArg Bay.fault still).trans fault, Part.mem_faultRecord _ _ _ _,
      (congrArg Bay.session still).trans session, (congrArg Bay.watch still).trans watch,
      (RackStep.watchStopped s.part b d).trans ((RackStep.faultOccur .slow _ b).trans fin.toRack)⟩
  case stopped =>
    rw [Part.watchExpiry_other hd other] at still fin
    rw [Part.watchStopped_bay] at still
    exact ⟨t, run, after, (congrArg Bay.watch still).trans rfl, (congrArg Bay.fault still).trans rfl,
      (congrArg Bay.session still).trans rfl, (RackStep.watchStopped s.part b d).trans fin.toRack⟩

end Sys2Proof.Machine
end

section
/-! The display of a bay against the rows of its table. -/

namespace Sys2Proof.Machine

/-! ### The display table (R141) -/

/-- A row whose first condition is the whole condition of the next row: both stand as two cases of that condition. -/
theorem ite_and_then_ite {α : Type} (c d : Prop) [Decidable c] [Decidable d] (x y z : α) :
    (if c ∧ d then x else if c then y else z) = if c then (if d then x else y) else z := by
  by_cases hc : c
  case pos => simp only [hc, true_and, if_true]
  case neg => simp only [hc, false_and, if_false]

/-- Settles O39, row by row: both sides ask the conditions in one order, and rows 5 and 6 stand as two cases of a
CHARGING session, rows 7 and 8 as two of a TOPPED one. -/
theorem displayIsTheFirstRowThatHolds : Obligations.DisplayIsTheFirstRowThatHolds := by
  intro p b
  unfold Part.displayOf
  rw [ite_and_then_ite]
  refine ite_congr (by rw [bne_iff_ne]) (fun _ => rfl) fun _ => ?_
  refine ite_congr rfl (fun _ => rfl) fun _ => ?_
  refine ite_congr (by rw [Option.isSome_iff_ne_none]) (fun _ => rfl) fun _ => ?_
  refine ite_congr ?retired (fun _ => rfl) fun _ =>
    ite_congr (by rw [beq_iff_eq]) (fun _ => ?charging) fun _ => ?others
  case retired =>
    cases p.occupantEntry b with
    | none => simp only [Bool.false_eq_true, Option.map_none, reduceCtorEq]
    | some e => simp only [Option.map_some, Option.some.injEq]
  case charging =>
    refine ite_congr ?_ (fun _ => rfl) fun _ => rfl
    cases (p.bay b).telemetry with
    | none => rfl
    | some t => rfl
  case others =>
    refine ite_congr (by rw [beq_iff_eq]) (fun _ => ?_) fun _ => rfl
    cases (p.rack b.rack).showState with
    | idle => rfl
    | ramp step d => rfl
    | hold d => rfl

end Sys2Proof.Machine
end

section
/-! RAMP_TIMER_ELAPSE and HOLD_TIMER_ELAPSE: the show state that each leaves stands through the end of the event. -/

namespace Sys2Proof.Machine

/-! ### A rack's show state (R145) -/

/-- The part with another show state of one rack. -/
def Part.withShow (p : Part) (r : RackNo) (x : ShowState) : Part := p.modRack r fun k => { k with showState := x }

theorem Part.withShow_showState (p : Part) (r : RackNo) (x : ShowState) :
    ((p.withShow r x).rack r).showState = x := by rw [Part.withShow, Part.rack_modRack_same]

theorem Part.withShow_bay (p : Part) (r : RackNo) (x : ShowState) (b : BayRef) : (p.withShow r x).bay b = p.bay b := by
  by_cases h : b.rack = r
  · subst h
    rw [Part.bay, Part.withShow, Part.rack_modRack_same]
    rfl
  · rw [Part.bay, Part.withShow, Part.rack_modRack_other _ _ _ _ h]
    rfl

theorem RackStep.withShow (p : Part) (r : RackNo) (x : ShowState) : RackStep p (p.withShow r x) :=
  RackStep.modRack p r _ rfl

/-! ### The elapses of its timers (R146, R147) -/

theorem Part.rampElapse_running {p : Part} {r : RackNo} {step : Nat} {d : Millis}
    (h : (p.rack r).showState = .ramp step d) :
    p.rampElapse r = (p.reach d).withShow r
      (if step + 1 < 5 then .ramp (step + 1) (max p.now d + p.profile.rampDelay)
       else .hold (max p.now d + 1000 * p.profile.hold)) := by
  simp only [Part.rampElapse, h]
  split
  · rfl
  · rfl

theorem Part.holdElapse_running {p : Part} {r : RackNo} {d : Millis} (h : (p.rack r).showState = .hold d) :
    p.holdElapse r = (p.reach d).withShow r .idle := by
  simp only [Part.holdElapse, h]
  rfl

/-- An event whose own effect is that the time reaches a deadline and a rack takes the show state `x`: what the end
of an event changes leaves `x`, and of every bay all but what the engine and the displays change. -/
theorem exec_showTimer {i : Instr} {s : State} {f : Part → Part} {r : RackNo} {d : Millis} {x : ShowState}
    (h : s.deaf = false) (row : exec i s = .next (s.partEvent fun nv p => (f p).finish nv))
    (moved : f s.part = (s.part.reach d).withShow r x) :
    ∃ t, exec i s = .next t ∧ s.after t ∧ (t.part.rack r).showState = x ∧
      (∀ b, (t.part.bay b).still = (s.part.bay b).still) ∧ RackStep { s.part with now := max s.part.now d } t.part := by
  obtain ⟨t, run, after, reported⟩ := exec_partEvent h row
  rw [moved] at reported
  have fin : EngineStep ((s.part.reach d).withShow r x) t.part := (EngineStep.finish s.nv _).trans reported.toEngine
  refine ⟨t, run, after, ?shown, fun b => ?bays, (RackStep.withShow (s.part.reach d) r x).trans fin.toRack⟩
  case shown => exact (congrArg Rack.showState (fin.rack_still r)).trans (Part.withShow_showState _ r x)
  case bays => rw [fin.bay_still, Part.withShow_bay]; rfl

/-- Settles O46: each elapse of a running timer is the change of one show state at the time of its deadline. -/
theorem showTimersMoveTheShowState : Obligations.ShowTimersMoveTheShowState :=
  fun _ _ h =>
    ⟨fun _ _ ramping => exec_showTimer h rfl (Part.rampElapse_running ramping),
     fun _ holding => exec_showTimer h rfl (Part.holdElapse_running holding)⟩

end Sys2Proof.Machine
end

section
/-! What the end of a report's sending leaves: the issue record that it showed in a final state is freed. -/

namespace Sys2Proof.Machine

/-! ### What the frames leave of the issue records -/

theorem EngineStep.issue_eq {p q : Part} (h : EngineStep p q) (n : IssueNo) : q.issue n = p.issue n := by
  rw [h.1]; rfl

theorem AirStep.issue_eq {p q : Part} (h : AirStep p q) (n : IssueNo) : q.issue n = p.issue n := by rw [h]; rfl

/-- Where `q` is `p` but for its issue records, a report step from `q` is one from `p` with the records it ends in. -/
theorem ReportStep.withIssues {p q r : Part} (h : q = { p with issues := q.issues }) (k : ReportStep q r) :
    ReportStep { p with issues := r.issues } r := by
  have issues : r.issues = q.issues := by rw [k]
  rw [issues, ← h]
  exact k

/-! ### The end of a report (R188, R198) -/

/-- The part once the issue record that a report showed in a final state is freed, unless it has changed. -/
def Part.freeShown (p : Part) (r : Report) : Part :=
  match r.source, r.final with
  | .issue n, some x => if p.issue n = x then p.freeIssue n else p
  | _, _ => p

theorem Part.freeShown_same {p : Part} {r : Report} {n : IssueNo} {x : Issue} (source : r.source = .issue n)
    (final : r.final = some x) (same : p.issue n = x) : p.freeShown r = p.freeIssue n := by
  simp only [Part.freeShown, source, final, same, if_true]

theorem Part.freeShown_unfinished {p : Part} {r : Report} (final : r.final = none) : p.freeShown r = p := by
  unfold Part.freeShown
  split
  · next finished => rw [final] at finished; cases finished
  · rfl

/-- Nothing but the issue records is changed. -/
theorem Part.freeShown_frame (p : Part) (r : Report) : p.freeShown r = { p with issues := (p.freeShown r).issues } := by
  unfold Part.freeShown
  split
  · split
    · rfl
    · rfl
  · rfl

theorem State.reportSent_eq {s : State} {r : Report} (line : s.link.line = some (.report r)) :
    s.reportSent = { s.freeLine with part := s.part.freeShown r } := by
  obtain ⟨source, _, _, final⟩ := r
  unfold State.reportSent
  rw [line]
  cases final with
  | none => cases source <;> rfl
  | some x =>
    cases source with
    | issue n => exact (apply_ite (fun p => ({ s.freeLine with part := p } : State)) _ _ _).symm
    | system | tour | unit | zone | rack | bay | channel | image => rfl

theorem State.event_awake {s : State} (h : s.deaf = false) (f : State → State) : s.event f = (f s).arbitrate :=
  if_neg (ne_true_of_eq_false h)

/-- Settles O15: the sending's end is the freeing of the record shown, and then at most a report is taken. -/
theorem reportSentFreesTheIssueItShowed : Obligations.ReportSentFreesTheIssueItShowed := by
  intro s r h line
  have run : exec .reportSent s = .next ({ s.freeLine with part := s.part.freeShown r } : State).arbitrate := by
    rw [← State.reportSent_eq line, ← State.event_awake h]
    rfl
  have taken := State.arbitrate_report { s.freeLine with part := s.part.freeShown r }
  have issues (m : IssueNo) := taken.toAir.issue_eq m
  refine ⟨_, run, State.arbitrate_slot _, State.arbitrate_nv _, State.arbitrate_pending _,
    fun n x source final same => ⟨?freed, fun m hm => ?others⟩, fun final => ?unfinished, ?frame⟩
  case freed => rw [issues, Part.freeShown_same source final same, Part.freeIssue, Part.issue_setIssue_same]
  case others =>
    rw [issues, Part.freeShown_same source final same, Part.freeIssue, Part.issue_setIssue_other _ _ _ _ hm]
  case unfinished => exact Part.freeShown_unfinished final ▸ taken
  case frame => exact ReportStep.withIssues (s.part.freeShown_frame r) taken

end Sys2Proof.Machine
end

section
/-! ISSUE_CANCEL and the issue timers: the record that a settlement leaves. -/

namespace Sys2Proof.Machine

/-! ### A record that is not TUNING stands while jobs end -/

/-- An issue record that is not TUNING is the same in `q` as in `p`. -/
def RecordStands (n : IssueNo) (p q : Part) : Prop := (p.issue n).state ≠ .tuning → q.issue n = p.issue n

namespace RecordStands

variable {n : IssueNo}

theorem refl (p : Part) : RecordStands n p p := fun _ => rfl

theorem trans {p q r : Part} (h : RecordStands n p q) (k : RecordStands n q r) : RecordStands n p r := fun settled => by
  have first := h settled
  exact (k (by rw [first]; exact settled)).trans first

theorem ofEngine {p q : Part} (h : EngineStep p q) : RecordStands n p q := fun _ => h.issue_eq n

end RecordStands

/-! ### The record settled (R181) -/

/-- The record with an outcome, its timers stopped (R181, step 1). -/
def Issue.settled (x : Issue) (o : Outcome) (now : Millis) : Issue :=
  { x with state := o.state, reason := o.reason, endAt := some now, limit := none, pick := none }

theorem Outcome.state_ne_tuning (o : Outcome) : o.state ≠ .tuning := by cases o <;> simp [Outcome.state]

/-- The first steps of a settlement: the record, then the mark of its bay. -/
theorem EngineStep.settleBegin (p : Part) (n : IssueNo) (o : Outcome) :
    EngineStep (p.setIssue n ((p.issue n).settled o p.now)) (p.settleBegin n o) := by
  simp only [Part.settleBegin]
  split
  · exact EngineStep.setPickMark _ _ _
  · exact EngineStep.refl _

theorem Part.settleBegin_issue_same (p : Part) (n : IssueNo) (o : Outcome) :
    (p.settleBegin n o).issue n = (p.issue n).settled o p.now := by
  rw [(EngineStep.settleBegin p n o).issue_eq, Part.issue_setIssue_same]

theorem Part.settleBegin_issue_other (p : Part) {m n : IssueNo} (hn : n ≠ m) (o : Outcome) :
    (p.settleBegin m o).issue n = p.issue n := by
  rw [(EngineStep.settleBegin p m o).issue_eq, Part.issue_setIssue_other _ _ _ _ hn]

theorem AirStep.releaseHeld (p : Part) (o : Outcome) (x : Issue) : AirStep p (p.releaseHeld o x) := by
  unfold Part.releaseHeld
  split
  · exact AirStep.refl p
  · exact AirStep.releaseClaim p _
  · exact AirStep.refl p

theorem EngineStep.serveSettled (p : Part) (o : Outcome) (x : Issue) : EngineStep p (p.serveSettled o x) := by
  unfold Part.serveSettled
  split
  · refine EngineStep.trans ?_ (EngineStep.readyEval _ _)
    split
    · exact (EngineStep.addUntune _ _).trans (EngineStep.tryWork _ _)
    · exact EngineStep.refl p
  · exact EngineStep.refl p

theorem Part.reportSettled_issue_same (p : Part) (n : IssueNo) (o : Outcome) :
    (p.reportSettled n o).issue n =
      if p.profile.disabledKinds.contains o.event then Issue.free else p.issue n := by
  have raised := ReportStep.raise p (.issue n) o.event
  have profile : (p.raise (.issue n) o.event).profile = p.profile := by rw [raised]
  simp only [Part.reportSettled, profile]
  split
  · exact Part.issue_setIssue_same _ n _
  · exact raised.toAir.issue_eq n

theorem Part.reportSettled_issue_other (p : Part) {m n : IssueNo} (hn : n ≠ m) (o : Outcome) :
    (p.reportSettled m o).issue n = p.issue n := by
  have raised := (ReportStep.raise p (.issue m) o.event).toAir.issue_eq n
  unfold Part.reportSettled
  split
  · rw [Part.freeIssue, Part.issue_setIssue_other _ _ _ _ hn, raised]
  · exact raised

/-- The last steps of a settlement free the record of a disabled kind, and leave any other. -/
theorem Part.settleEnd_issue_same (p : Part) (n : IssueNo) (o : Outcome) (x : Issue) :
    (p.settleEnd n o x).issue n =
      if p.profile.disabledKinds.contains o.event then Issue.free else p.issue n := by
  have released := AirStep.releaseHeld p o x
  have served := EngineStep.serveSettled (p.releaseHeld o x) o x
  have profile : ((p.releaseHeld o x).serveSettled o x).profile = p.profile := by rw [served.1, released]
  rw [Part.settleEnd_eq, Part.reportSettled_issue_same, profile, served.issue_eq, released.issue_eq]

theorem Part.settleEnd_issue_other (p : Part) {m n : IssueNo} (hn : n ≠ m) (o : Outcome) (x : Issue) :
    (p.settleEnd m o x).issue n = p.issue n := by
  rw [Part.settleEnd_eq, Part.reportSettled_issue_other _ hn, (EngineStep.serveSettled _ o x).issue_eq,
    (AirStep.releaseHeld p o x).issue_eq]

theorem Part.settlePlain_issue_other (p : Part) {m n : IssueNo} (hn : n ≠ m) (o : Outcome) :
    (p.settlePlain m o).issue n = p.issue n := by
  rw [Part.settlePlain, Part.settleEnd_issue_other _ hn, Part.settleBegin_issue_other _ hn]

/-! ### A TUNE withdrawn (R167, R168, R182) -/

theorem Part.tuningRecord_state {p : Part} {number : Nat} {m : IssueNo} (h : p.tuningRecord number = some m) :
    (p.issue m).state = .tuning := by
  have found := List.find?_some h
  rw [Bool.and_eq_true, beq_iff_eq] at found
  exact found.1

namespace RecordStands

variable {n : IssueNo}

/-- The abort of a TUNE settles at most the TUNING record that waits for it. -/
theorem tuneAborted (p : Part) (number : Nat) (r : AbortReason) :
    RecordStands n p (p.tuneEnded number (.aborted r)) := fun settled => by
  cases waiting : p.tuningRecord number with
  | none => simp only [Part.tuneEnded, waiting]
  | some m =>
    have other : n ≠ m := fun same => settled (same ▸ Part.tuningRecord_state waiting)
    simp only [Part.tuneEnded, waiting]
    split
    · next done => cases done
    · rw [Part.settlePlain_issue_other _ other, Part.issue_modIssue_other _ _ _ _ other]
    · rw [Part.settlePlain_issue_other _ other, Part.issue_modIssue_other _ _ _ _ other]

theorem kindEffects (p : Part) (j : Job) (r : AbortReason) : RecordStands n p (p.kindEffects j (.aborted r)) := by
  unfold Part.kindEffects
  split
  · next done _ => cases done
  · exact ofEngine (EngineStep.modBay _ _ _ rfl)
  · exact refl p

theorem abortJob (p : Part) (j : Job) (r : AbortReason) : RecordStands n p (p.endJob j (.aborted r)) := by
  have unbound : RecordStands n p (p.unbindJob j (.aborted r)) :=
    ofEngine ((EngineStep.dropJob p j).trans (EngineStep.modBay _ _ _ rfl))
  have tuned (q : Part) : RecordStands n q (if j.work.urgent then q.tuneEnded j.number (.aborted r) else q) := by
    split
    · exact tuneAborted q _ r
    · exact refl q
  rw [Part.endJob_eq]
  refine unbound.trans ((tuned _).trans ((kindEffects _ j r).trans (ofEngine ?_)))
  exact (EngineStep.tryWork _ _).trans ((EngineStep.readyEval _ _).trans (EngineStep.raise _ _ _))

end RecordStands

/-! ### A settlement (R181, R188) -/

/-- Step 3 of a settlement: the TUNE of a record that was TUNING is withdrawn where the outcome says so (R181). -/
def Part.withdrawTune (p : Part) (o : Outcome) (x : Issue) : Part :=
  match x.state, x.job with
  | .tuning, some (k, _) =>
    if o.withdraws then
      match p.jobNumbered k with
      | some j => (p.endJob j (.aborted .issueEnded)).serveLeft
      | none => p
    else p
  | _, _ => p

theorem Part.settle_eq (p : Part) (n : IssueNo) (o : Outcome) :
    p.settle n o = ((p.settleBegin n o).withdrawTune o (p.issue n)).settleEnd n o (p.issue n) := rfl

theorem Part.withdrawTune_cases (p : Part) (o : Outcome) (x : Issue) :
    p.withdrawTune o x = p ∨ ∃ j, p.withdrawTune o x = (p.endJob j (.aborted .issueEnded)).serveLeft := by
  unfold Part.withdrawTune
  split
  · split
    · split
      · next j _ => exact .inr ⟨j, rfl⟩
      · exact .inl rfl
    · exact .inl rfl
  · exact .inl rfl

theorem RackStep.withdrawTune (p : Part) (o : Outcome) (x : Issue) : RackStep p (p.withdrawTune o x) := by
  obtain kept | ⟨j, ended⟩ := p.withdrawTune_cases o x
  · rw [kept]; exact RackStep.refl p
  · rw [ended]; exact (RackStep.endJob p j _).trans (EngineStep.serveLeft _).toRack

theorem RecordStands.withdrawTune {n : IssueNo} (p : Part) (o : Outcome) (x : Issue) :
    RecordStands n p (p.withdrawTune o x) := by
  obtain kept | ⟨j, ended⟩ := p.withdrawTune_cases o x
  · rw [kept]; exact RecordStands.refl p
  · rw [ended]; exact (RecordStands.abortJob p j _).trans (RecordStands.ofEngine (EngineStep.serveLeft _))

/-- The record that a settlement leaves: FREE where the kind of its outcome is disabled, else with its outcome. -/
theorem Part.settle_issue (p : Part) (n : IssueNo) (o : Outcome) :
    (p.settle n o).issue n =
      if p.profile.disabledKinds.contains o.event then Issue.free else (p.issue n).settled o p.now := by
  have begun := p.settleBegin_issue_same n o
  have stands : ((p.settleBegin n o).withdrawTune o (p.issue n)).issue n = (p.issue n).settled o p.now :=
    (RecordStands.withdrawTune _ o _ (by rw [begun]; exact o.state_ne_tuning)).trans begun
  have profile : ((p.settleBegin n o).withdrawTune o (p.issue n)).profile = p.profile := by
    rw [((RackStep.settleBegin p n o).trans (RackStep.withdrawTune _ o _)).1]
  rw [Part.settle_eq, Part.settleEnd_issue_same, profile, stands]

/-! ### ISSUE_CANCEL and the issue timers (R183, R184, R187) -/

theorem ownIssueCancel_refused {nv : Nv} {p : Part} {n : IssueNo} (idle : (p.issue n).state.inProgress = false) :
    ownIssueCancel (.val (n.val + 1)) nv p = (p, .reply .state []) := by
  simp [ownIssueCancel, idle, refuse]

theorem ownIssueCancel_settles {nv : Nv} {p : Part} {n : IssueNo} (going : (p.issue n).state.inProgress = true) :
    ownIssueCancel (.val (n.val + 1)) nv p =
      ((p.settle n .cancelled).finish nv, .reply .ok [fld "untune" (bit (p.issue n).tuned)]) := by
  simp [ownIssueCancel, going]

/-- An event whose own effect is that the time reaches a deadline and an issue record is settled. -/
theorem exec_issueTimer {i : Instr} {s : State} {f : Part → Part} {n : IssueNo} {d : Millis} {o : Outcome}
    (h : s.deaf = false) (row : exec i s = .next (s.partEvent fun nv p => (f p).finish nv))
    (ran : f s.part = (s.part.reach d).settle n o) :
    ∃ t, exec i s = .next t ∧ s.after t ∧
      t.part.issue n = (if s.part.profile.disabledKinds.contains o.event then Issue.free
        else (s.part.issue n).settled o (max s.part.now d)) ∧
      RackStep { s.part with now := max s.part.now d } t.part := by
  obtain ⟨t, run, after, reported⟩ := exec_partEvent h row
  rw [ran] at reported
  have fin : EngineStep ((s.part.reach d).settle n o) t.part := (EngineStep.finish s.nv _).trans reported.toEngine
  exact ⟨t, run, after, (fin.issue_eq n).trans (Part.settle_issue (s.part.reach d) n o),
    (RackStep.settle (s.part.reach d) n o).trans fin.toRack⟩

/-- Settles O55: a cancel and the end of each timer are a settlement of the one record, whose outcome the end of the
event leaves. -/
theorem issueCancelAndTimersEndTheRecord : Obligations.IssueCancelAndTimersEndTheRecord := by
  refine ⟨fun s tag n h => ⟨fun idle => ?refused, fun going => ?cancelled⟩,
    fun s n d h => ⟨fun tuning running => ?limit, fun picking running => ?pick⟩⟩
  case refused => exact exec_answered (i := .issueCancel tag _) h rfl (ownIssueCancel_refused idle)
  case cancelled =>
    obtain ⟨t, run, answered, made⟩ :=
      exec_answered (i := .issueCancel tag _) h rfl (ownIssueCancel_settles going)
    have fin : EngineStep (s.part.settle n .cancelled) t.part := made ▸ EngineStep.finish s.nv _
    have record := (fin.issue_eq n).trans (s.part.settle_issue n .cancelled)
    refine ⟨t, run, answered, fun enabled => ?_, fun disabled => record.trans (if_pos disabled),
      (RackStep.settle s.part n .cancelled).trans fin.toRack⟩
    rw [record.trans (if_neg (ne_true_of_eq_false enabled))]
    exact ⟨rfl, rfl, rfl, rfl, rfl, rfl⟩
  case limit =>
    obtain ⟨t, run, after, record, step⟩ := exec_issueTimer (i := .limitTimerExpiry n) (n := n) (d := d)
      (o := .failed .timeout) h rfl (by simp only [Part.limitExpiry, tuning, running])
    refine ⟨t, run, after, fun enabled => ?_, fun disabled => record.trans (if_pos disabled), step⟩
    rw [record.trans (if_neg (ne_true_of_eq_false enabled))]
    exact ⟨rfl, rfl, rfl, rfl⟩
  case pick =>
    obtain ⟨t, run, after, record, step⟩ := exec_issueTimer (i := .pickTimerExpiry n) (n := n) (d := d)
      (o := .expired) h rfl (by simp only [Part.pickExpiry, picking, running])
    refine ⟨t, run, after, fun enabled => ?_, fun disabled => record.trans (if_pos disabled), step⟩
    rw [record.trans (if_neg (ne_true_of_eq_false enabled))]
    exact ⟨rfl, rfl, rfl, rfl⟩

end Sys2Proof.Machine
end

section
/-! ISSUE: the record and the unit that it chooses, and the record that it makes. -/

namespace Sys2Proof.Machine

/-! ### The FREE record (R180) -/

theorem length_allIssues : allIssues.length = 16 := List.length_finRange

/-- The records are searched in the order of their numbers. -/
theorem val_getElem_allIssues {i : Nat} (h : i < allIssues.length) : (allIssues[i]).val = i :=
  congrArg Fin.val (List.getElem_finRange h)

theorem Part.freeRecord_eq_some_iff (p : Part) (n : IssueNo) :
    p.freeRecord = some n ↔ (p.issue n).state = .free ∧ ∀ m, m < n → (p.issue m).state ≠ .free := by
  rw [Part.freeRecord, List.find?_eq_some_iff_getElem, beq_iff_eq]
  refine and_congr_right fun _ => ⟨fun ⟨i, hi, found, before⟩ m hm free => ?lower, fun lower => ?search⟩
  case lower =>
    have number : n.val = i := found ▸ val_getElem_allIssues hi
    have hm' : m.val < allIssues.length := by rw [length_allIssues]; exact m.isLt
    have place : allIssues[m.val] = m := Fin.ext (val_getElem_allIssues hm')
    have other := before m.val (number ▸ hm)
    rw [place, free] at other
    cases other
  case search =>
    have hn : n.val < allIssues.length := by rw [length_allIssues]; exact n.isLt
    refine ⟨n.val, hn, Fin.ext (val_getElem_allIssues hn), fun j hj => ?_⟩
    have before : allIssues[j] < n := by
      rw [Fin.lt_def, val_getElem_allIssues]
      exact hj
    exact Bool.not_eq_true' _ ▸ beq_eq_false_iff_ne.mpr (lower _ before)

/-! ### The unit chosen (R179) -/

/-- The checks of a claim and of the queue's room choose no other bay. -/
theorem Part.issueRoom_inl {p : Part} {tune : Option Tune} {bay : Option BayRef} {b : BayRef}
    (h : p.issueRoom tune bay = .inl b) : bay = some b := by
  unfold Part.issueRoom at h
  split at h
  · cases h
  · split at h
    · cases h
    · split at h
      · cases h
      · cases h; rfl

theorem Part.issueChoice_byRack {p : Part} {r : RackNo} {cls : UnitClass} {x y : Option Tune} {b : BayRef}
    (h : p.issueChoice (.byRack r cls x) = .inl (b, y)) : y = x ∧ p.readyOf r cls = some b := by
  simp only [Part.issueChoice] at h
  split at h
  · next room => cases h; exact ⟨rfl, Part.issueRoom_inl room⟩
  · cases h

theorem Part.issueChoice_byUnit {p : Part} {u : UnitId} {x y : Option Tune} {b : BayRef}
    (h : p.issueChoice (.byUnit u x) = .inl (b, y)) : y = x ∧ p.readyBay u = some b := by
  simp only [Part.issueChoice] at h
  split at h
  · cases h
  · split at h
    · cases h
    · split at h
      · cases h
      · next found =>
        split at h
        · next room => cases h; exact ⟨rfl, found.trans (Part.issueRoom_inl room)⟩
        · cases h

/-- The unit nearest the head: no bay before its own in the ready queue holds a unit of the class. -/
theorem Part.readyOf_some {p : Part} {r : RackNo} {cls : UnitClass} {b : BayRef} (h : p.readyOf r cls = some b) :
    b.rack = r ∧ (p.occupantEntry b).map (·.cls) = some cls ∧
      ∃ front back, (p.rack r).ready = front ++ b.no :: back ∧
        ∀ n ∈ front, (p.occupantEntry ⟨r, n⟩).map (·.cls) ≠ some cls := by
  rw [Part.readyOf, List.find?_map, Option.map_eq_some_iff] at h
  obtain ⟨n, found, rfl⟩ := h
  obtain ⟨ofClass, front, back, ready, others⟩ := List.find?_eq_some_iff_append.mp found
  refine ⟨rfl, beq_iff_eq.mp ofClass, front, back, ready, fun m hm same => ?_⟩
  have other := others m hm
  simp [same] at other

theorem Part.readyBay_some {p : Part} {u : UnitId} {b : BayRef} (h : p.readyBay u = some b) :
    p.listedIn b = some u ∧ b.no ∈ (p.rack b.rack).ready := by
  have found := List.find?_some h
  rw [Bool.and_eq_true, List.contains_iff_mem, beq_iff_eq] at found
  exact ⟨found.2, found.1⟩

/-! ### A record made -/

/-- From `p` to `q` one issue record becomes `x`; the other records, the unit table and the tours stay, and the rest
changes as the events of a rack module may change it. -/
structure RecordMade (n : IssueNo) (x : Issue) (p q : Part) : Prop where
  record : q.issue n = x
  others : ∀ m, m ≠ n → q.issue m = p.issue m
  units : q.units = p.units
  tours : q.tours = p.tours
  step : RackStep p q

namespace RecordMade

variable {n : IssueNo} {x y : Issue} {p q r : Part}

theorem setIssue (p : Part) (n : IssueNo) (x : Issue) : RecordMade n x p (p.setIssue n x) :=
  ⟨Part.issue_setIssue_same p n x, fun m hm => Part.issue_setIssue_other p n m x hm, rfl, rfl,
    RackStep.setIssue p n x⟩

theorem trans (h : RecordMade n x p q) (k : RecordMade n y q r) : RecordMade n y p r :=
  ⟨k.record, fun m hm => (k.others m hm).trans (h.others m hm), k.units.trans h.units, k.tours.trans h.tours,
    h.step.trans k.step⟩

theorem thenEngine (h : RecordMade n x p q) (k : EngineStep q r) : RecordMade n x p r :=
  ⟨(k.issue_eq n).trans h.record, fun m hm => (k.issue_eq m).trans (h.others m hm), k.units_eq.trans h.units,
    (show r.tours = q.tours by rw [k.1]).trans h.tours, h.step.trans k.toRack⟩

theorem modIssue (h : RecordMade n x p q) (f : Issue → Issue) : RecordMade n (f x) p (q.modIssue n f) :=
  h.record ▸ h.trans (setIssue q n _)

/-- A record made enters PICKING at the time of the making (R184). -/
theorem enterPicking (h : RecordMade n x p q) :
    RecordMade n { x with state := .picking, pickAt := some p.now, limit := none
                          pick := some (p.now + 1000 * p.profile.pickTime) } p (q.enterPicking n) := by
  have now : q.now = p.now := by rw [h.step.1]
  have profile : q.profile = p.profile := by rw [h.step.1]
  simp only [Part.enterPicking, h.record, now, profile]
  refine thenEngine ?_ (EngineStep.raise _ _ _)
  split
  · exact (h.trans (setIssue q n _)).thenEngine (EngineStep.setPickMark _ _ _)
  · exact h.trans (setIssue q n _)

end RecordMade

/-! ### The record that ISSUE makes (R180) -/

/-- A record as ISSUE fills it, before its timer and its TUNE. -/
def Issue.taking (state : IssueState) (b : BayRef) (e : Entry) (tune : Option Tune) (now : Millis) : Issue :=
  { Issue.free with
    state := state, cls := some e.cls, unit := some e.unit, bay := some b, tune := tune, issuedAt := some now }

/-- The record of an ISSUE with a tune: TUNING, with its limit timer and the TUNE queued. -/
def Part.tuningIssue (p : Part) (b : BayRef) (e : Entry) (t : Tune) : Issue :=
  { Issue.taking .tuning b e (some t) p.now with
    limit := some (p.now + 1000 * p.profile.issueLimit), job := some (p.nextNumber, none) }

/-- The record of an ISSUE without a tune: PICKING, with its pick timer. -/
def Part.pickingIssue (p : Part) (b : BayRef) (e : Entry) : Issue :=
  { Issue.taking .picking b e none p.now with
    pickAt := some p.now, pick := some (p.now + 1000 * p.profile.pickTime) }

theorem Part.readyEval_nextNumber (p : Part) (b : BayRef) : (p.readyEval b).nextNumber = p.nextNumber := by
  simp only [Part.readyEval]
  split
  · split
    · rfl
    · rfl
  · rfl

/-- The part with the claim and the TUNING record of an ISSUE, before its TUNE is queued. -/
def Part.claimIssue (p : Part) (n : IssueNo) (b : BayRef) (e : Entry) (t : Tune) : Part :=
  ((p.setIssue n { Issue.taking .tuning b e (some t) p.now with
      limit := some (p.now + 1000 * p.profile.issueLimit) }).takeClaim t.tour).readyEval b

theorem Part.claimIssue_nextNumber (p : Part) (n : IssueNo) (b : BayRef) (e : Entry) (t : Tune) :
    (p.claimIssue n b e t).nextNumber = p.nextNumber := Part.readyEval_nextNumber _ b

/-- The taking of a unit for a tune: neither the claim nor the record changes the number that its TUNE takes. -/
theorem Part.issueUnit_tune (p : Part) (n : IssueNo) (b : BayRef) (e : Entry) (t : Tune) :
    p.issueUnit n b e (some t) =
      ((((p.claimIssue n b e t).modIssue n fun x => { x with job := some (p.nextNumber, none) }).joinQueue b e.unit
        (.tune (some t))).raise (.issue n) .issued, some p.nextNumber) := by
  rw [← p.claimIssue_nextNumber n b e t]
  rfl

/-- A claim and a record are taken in either order. -/
theorem Part.takeClaim_setIssue (p : Part) (n : IssueNo) (x : Issue) (t : TourNo) :
    (p.setIssue n x).takeClaim t = (p.takeClaim t).setIssue n x := rfl

theorem RecordMade.claimIssue (p : Part) (n : IssueNo) (b : BayRef) (e : Entry) (t : Tune) :
    RecordMade n { Issue.taking .tuning b e (some t) p.now with
      limit := some (p.now + 1000 * p.profile.issueLimit) } (p.takeClaim t.tour) (p.claimIssue n b e t) := by
  rw [Part.claimIssue, Part.takeClaim_setIssue]
  exact (RecordMade.setIssue _ n _).thenEngine (EngineStep.readyEval _ b)

theorem RecordMade.issueUnit_tune (p : Part) (n : IssueNo) (b : BayRef) (e : Entry) (t : Tune) :
    RecordMade n (p.tuningIssue b e t) (p.takeClaim t.tour) (p.issueUnit n b e (some t)).1 := by
  have numbered := (RecordMade.claimIssue p n b e t).modIssue fun x => { x with job := some (p.nextNumber, none) }
  rw [Part.issueUnit_tune]
  dsimp only
  exact numbered.thenEngine ((EngineStep.joinQueue _ b e.unit _).trans (EngineStep.raise _ _ _))

theorem RecordMade.issueUnit_pick (p : Part) (n : IssueNo) (b : BayRef) (e : Entry) :
    RecordMade n (p.pickingIssue b e) p (p.issueUnit n b e none).1 :=
  (((RecordMade.setIssue p n (Issue.taking .picking b e none p.now)).thenEngine
    (EngineStep.raise _ _ _)).enterPicking).thenEngine (EngineStep.readyEval _ b)

/-! ### ISSUE (R179, R180) -/

/-- ISSUE with a form, a FREE record and a unit chosen: the part that the taking of the unit makes, and the reply. -/
theorem ownIssue_chosen {nv : Nv} {p : Part} {fr : HostField Nat} {fc : HostField UnitClass} {fu : HostField UnitId}
    {ft fl : HostField Nat} {f : IssueForm} {n : IssueNo} {b : BayRef} {e : Entry} {tune : Option Tune}
    (form : issueForm fr fc fu ft fl = some f) (free : p.freeRecord = some n)
    (chosen : p.issueChoice f = .inl (b, tune)) (occupant : p.occupantEntry b = some e) :
    ownIssue fr fc fu ft fl nv p =
      ((p.issueUnit n b e tune).1.finish nv, .reply .ok
        [fld "issue" (numText (n.val + 1)), fld "unit" (hex8 e.unit), fld "bay" (bayText b),
         fld "job" (orDash numText (p.issueUnit n b e tune).2)]) := by
  simp only [ownIssue, form, free, chosen, occupant]

/-- Settles O54: the record made stands through the end of the event; the choices are read off the searches that make
them. -/
theorem issueTakesAFreeRecord : Obligations.IssueTakesAFreeRecord := by
  refine ⟨fun s tag fr fc fu ft fl f n b e tune h form free chosen occupant => ?makes, Part.freeRecord_eq_some_iff,
    fun p r cls x y b chosen => ?byRack, fun p u x y b chosen => ?byUnit⟩
  case makes =>
    obtain ⟨t, run, answered, made⟩ :=
      exec_answered (i := .issue tag fr fc fu ft fl) h rfl (ownIssue_chosen form free chosen occupant)
    have fin : EngineStep (s.part.issueUnit n b e tune).1 t.part := made ▸ EngineStep.finish s.nv _
    cases tune with
    | some x =>
      rw [Part.issueUnit_tune] at answered
      obtain ⟨record, others, units, tours, step⟩ := (RecordMade.issueUnit_tune s.part n b e x).thenEngine fin
      have count : (t.part.tour x.tour).count = (s.part.tour x.tour).count + 1 := by
        have tour : t.part.tour x.tour = (s.part.takeClaim x.tour).tour x.tour := by rw [Part.tour, tours]; rfl
        rw [tour, Part.takeClaim, Part.tour_modTour_same]
      refine ⟨t, run, answered, ?_⟩
      rw [record]
      exact ⟨rfl, rfl, rfl, rfl, rfl, fun _ same => Option.some.inj same ▸ ⟨rfl, rfl, rfl, count⟩,
        nofun, others, units, (AirStep.takeClaim s.part x.tour).toRack.trans step⟩
    | none =>
      obtain ⟨record, others, units, tours, step⟩ := (RecordMade.issueUnit_pick s.part n b e).thenEngine fin
      refine ⟨t, run, answered, ?_⟩
      rw [record]
      exact ⟨rfl, rfl, rfl, rfl, rfl, nofun, fun _ => ⟨rfl, rfl, tours⟩, others, units, step⟩
  case byRack =>
    obtain ⟨same, ready⟩ := Part.issueChoice_byRack chosen
    exact ⟨same, Part.readyOf_some ready⟩
  case byUnit =>
    obtain ⟨same, ready⟩ := Part.issueChoice_byUnit chosen
    exact ⟨same, Part.readyBay_some ready⟩

end Sys2Proof.Machine
end

section
/-! The rate of the host line: none of the operations of the blocks behind the link port changes it. -/

namespace Sys2Proof.Machine

/-! ### The relation, and the frames that contain it -/

/-- The rate of the host line is the same in both, as the straps selected it at the last full reset (R206). -/
def SameRate (p q : Part) : Prop := q.store.baud = p.store.baud

@[refl] theorem SameRate.refl (p : Part) : SameRate p p := rfl

theorem SameRate.trans {p q r : Part} (h : SameRate p q) (k : SameRate q r) : SameRate p r := Eq.trans k h

theorem SameRate.foldl {α : Type} {f : Part → α → Part} (h : ∀ q a, SameRate q (f q a)) (l : List α) (p : Part) :
    SameRate p (l.foldl f p) := foldl_step SameRate.refl SameRate.trans h l p

theorem RackStep.sameRate {p q : Part} (h : RackStep p q) : SameRate p q := by
  obtain ⟨-, -, store⟩ := h
  rw [SameRate, store]

theorem AirStep.sameRate {p q : Part} (h : AirStep p q) : SameRate p q := h.toRack.sameRate

theorem ZoneStep.sameRate {p q : Part} (h : ZoneStep p q) : SameRate p q := h.toAir.sameRate

theorem ReportStep.sameRate {p q : Part} (h : ReportStep p q) : SameRate p q := h.toAir.sameRate

theorem EngineStep.sameRate {p q : Part} (h : EngineStep p q) : SameRate p q := h.toRack.sameRate

/-- A rack's missed count rises for a poll turn that has ended unanswered, up to the limit (R101). -/
def Part.missPoll (p : Part) (r : RackNo) : Part :=
  match (p.rack r).state with
  | .online =>
    if Config.missedLimit ≤ (p.rack r).missed + 1 then p.teardownRack r
    else p.setRack r { p.rack r with missed := (p.rack r).missed + 1 }
  | .attaching =>
    if Config.missedLimit ≤ (p.rack r).missed + 1 then
      p.setRack r { p.rack r with state := .offline, step := none, offered := none, missed := 0 }
    else p.setRack r { p.rack r with missed := (p.rack r).missed + 1 }
  | _ => p

namespace SameRate

theorem raise (p : Part) (src : Source) (k : EventKind) : SameRate p (p.raise src k) :=
  (ReportStep.raise p src k).sameRate

/-- The end of an event keeps what its own effects kept. -/
theorem finish {p q : Part} (nv : Nv) (h : SameRate p q) : SameRate p (q.finish nv) :=
  h.trans (EngineStep.finish nv q).sameRate

/-- A check that refuses a command changes nothing. -/
theorem unlessRefused {p : Part} {r : ResultWord} {x : Part × Answer} {c : Prop} [Decidable c]
    (h : SameRate p x.1) : SameRate p (if c then refuse p r else x).1 := by
  split
  · rfl
  · exact h

/-- The part that an owner hands back with its answer at the end of the command's event. -/
theorem finished {p q : Part} {a : Answer} (nv : Nv) (h : SameRate p q) : SameRate p (q.finish nv, a).1 := by
  dsimp only
  exact h.finish nv

theorem setSlot (p : Part) (c : UnitClass) (h : ImageHeader) : SameRate p (p.setSlot c h) := by cases c <;> rfl

/-! ### The racks (R101 to R105) -/

theorem modRack (p : Part) (r : RackNo) (f : Rack → Rack) : SameRate p (p.modRack r f) := rfl

theorem teardownRack (p : Part) (r : RackNo) : SameRate p (p.teardownRack r) := by
  simp only [Part.teardownRack]
  refine SameRate.trans ?_ (raise _ _ _)
  exact ((modRack p r _).trans (RackStep.abortJobs _ _ _).sameRate).trans
    ((RackStep.failIssues _ _ _).sameRate.trans (modRack _ r _))

theorem rackHello (p : Part) (r : RackNo) (count revision : Nat) : SameRate p (p.rackHello r count revision) := by
  have torn : SameRate p (if (p.rack r).state = .online then p.teardownRack r else p) := by
    split
    · exact teardownRack p r
    · rfl
  simp only [Part.rackHello]
  split
  · rfl
  · split
    · exact torn.trans (modRack _ r _)
    · exact torn.trans ((modRack _ r _).trans (ReportStep.raiseWith _ _ _ _).sameRate)

theorem enableRack (p : Part) (r : RackNo) (on : Bool) : SameRate p (p.enableRack r on) := by
  unfold Part.enableRack
  split
  · exact modRack p r _
  · rfl
  · rfl
  · dsimp only
    split
    · exact (teardownRack p r).trans (modRack _ r _)
    · exact modRack p r _

theorem surveyBay (p : Part) (b : BayRef) (x : Option (UnitId × UnitClass)) : SameRate p (p.surveyBay b x) := by
  simp only [Part.surveyBay]
  split
  · rfl
  · split
    · exact (RackStep.sessionStart p b).sameRate
    · exact ((RackStep.unseat p b).trans (RackStep.seat _ b _ _)).sameRate
  · exact (RackStep.unseat p b).sameRate
  · exact (RackStep.seat p b _ _).sameRate

theorem attach (nv : Nv) (p : Part) (r : RackNo) (count : Nat) (seen : List (Option (UnitId × UnitClass))) :
    SameRate p (p.attach nv r count seen) := by
  simp only [Part.attach]
  refine SameRate.trans ?_ (raise _ _ _)
  refine SameRate.trans ?_ (EngineStep.foldl (fun q b => EngineStep.orderDisplay q ⟨r, b⟩) _ _).sameRate
  refine SameRate.trans ?_ (modRack _ r _)
  exact (modRack p r _).trans
    (SameRate.foldl (fun q b => (surveyBay q ⟨r, b⟩ _).trans (EngineStep.serveEngine nv _).sameRate) _ _)

theorem endTurn (p : Part) : SameRate p p.endTurn := rfl

theorem pollAnswered (p : Part) (r : RackNo) (m : PollMessage) : SameRate p (p.pollAnswered r m) := by
  cases m <;> rfl

theorem missPoll (p : Part) (r : RackNo) : SameRate p (p.missPoll r) := by
  unfold Part.missPoll
  split
  · split
    · exact teardownRack p r
    · rfl
  · split
    · rfl
    · rfl
  · rfl

theorem pollMissed (p : Part) (r : RackNo) (m : PollMessage) : SameRate p (p.pollMissed r m) := by
  cases m with
  | poll => exact missPoll (p.endTurn.modRack r Rack.ordersUnanswered) r
  | attach | rackSetup | survey => exact missPoll p.endTurn r

theorem turnTimeout (p : Part) : SameRate p p.turnTimeout := by
  unfold Part.turnTimeout
  split
  · rfl
  · exact pollMissed (p.reach _) _ _
  · exact (RackStep.requestGone ((p.reach _).endTurn) _ _).sameRate

theorem pollElapse (p : Part) (r : RackNo) : SameRate p (p.pollElapse r) := by
  unfold Part.pollElapse
  split
  · rfl
  · rfl

theorem setupDone (p : Part) (r : RackNo) (m : PollMessage) : SameRate p (p.setupDone r m) := by
  unfold Part.setupDone
  split
  · rfl
  · rfl

theorem surveyAnswer (nv : Nv) (p : Part) (r : RackNo) (m : PollMessage) (seen : List (Option (UnitId × UnitClass))) :
    SameRate p (p.surveyAnswer nv r m seen) := by
  unfold Part.surveyAnswer
  split
  · split
    · exact attach nv p r _ seen
    · rfl
  · rfl

theorem dockAccept (p : Part) (r : RackNo) : SameRate p (p.dockAccept r) := by
  unfold Part.dockAccept
  split
  · split
    · exact (RackStep.requestGone p.endTurn _ _).sameRate
    · rfl
  · split
    · exact pollAnswered p _ _
    · rfl
  · rfl

/-- The answer of a rack's poll turn: the turn ends, the answer has its effect, and the event ends. -/
theorem answered {f : PollMessage → Part → Part} (h : ∀ m q, SameRate q (f m q)) (nv : Nv) (p : Part) (r : RackNo) :
    SameRate p (match p.pollTurnOf r with
      | some m => (f m (p.pollAnswered r m)).finish nv
      | none => p) := by
  split
  · exact ((pollAnswered p r _).trans (h _ _)).finish nv
  · rfl

/-! ### The timers of racks, bays, channels and issue records -/

theorem rampElapse (p : Part) (r : RackNo) : SameRate p (p.rampElapse r) := by
  unfold Part.rampElapse
  split
  · dsimp only
    split
    · rfl
    · rfl
  · rfl

theorem holdElapse (p : Part) (r : RackNo) : SameRate p (p.holdElapse r) := by
  unfold Part.holdElapse
  split
  · rfl
  · rfl

theorem watchExpiry (p : Part) (b : BayRef) : SameRate p (p.watchExpiry b) := by
  unfold Part.watchExpiry
  split
  · rfl
  · dsimp only
    split
    · exact (RackStep.faultOccur .slow ((p.reach _).modBay b _) b).sameRate
    · rfl

theorem noAnswer (p : Part) (c : ChannelNo) : SameRate p (p.noAnswer c) := by
  unfold Part.noAnswer
  split
  · split
    · exact (RackStep.limitPassed (p.reach _) c _ _).sameRate
    · rfl
  · rfl

theorem limitExpiry (p : Part) (n : IssueNo) : SameRate p (p.limitExpiry n) := by
  unfold Part.limitExpiry
  split
  · exact (RackStep.settle (p.reach _) n _).sameRate
  · rfl

theorem pickExpiry (p : Part) (n : IssueNo) : SameRate p (p.pickExpiry n) := by
  unfold Part.pickExpiry
  split
  · exact (RackStep.settle (p.reach _) n _).sameRate
  · rfl

/-! ### The zones, the unit table and the house program -/

theorem markTaken (p : Part) (z : ZoneNo) (n : BitVec 16) : SameRate p (p.markTaken z n) := by
  simp only [Part.markTaken]
  split
  · rfl
  · rfl

theorem marked (p : Part) (z : ZoneNo) (m : CycleMark) : SameRate p (p.marked z m) := by
  have filed := SameRate.foldl (f := fun q v => q.filePacket z v)
    (fun q v => by rw [Part.filePacket_frame]; rfl) (takenPackets m) (p.markTaken z m.cycle)
  simp only [Part.marked]
  split
  · exact ((markTaken p z _).trans filed).trans
      (show SameRate _ (Part.houseAdvance _) from (ReportStep.houseAdvance _).sameRate)
  · exact (markTaken p z _).trans filed

theorem boundary (p : Part) (z : ZoneNo) (m : CycleMark) : SameRate p (p.boundary z m) :=
  (marked p z m).trans (AirStep.foldl (fun q st => AirStep.statusRecord q z st) (takenStatuses m)
    (((p.marked z m).publish z m.cycle).modZone z Zone.countLinger)).sameRate

theorem downExpiry (p : Part) (z : ZoneNo) : SameRate p (p.downExpiry z) := by
  unfold Part.downExpiry
  split
  · exact (AirStep.teardownZone (p.reach _) z .down).sameRate
  · rfl

theorem houseElapse (p : Part) : SameRate p p.houseElapse := by
  unfold Part.houseElapse
  split
  · rfl
  · rfl

theorem silenceExpiry (p : Part) (u : UnitId) : SameRate p (p.silenceExpiry u) := by
  cases he : p.entry u with
  | none => simp only [Part.silenceExpiry, he]; rfl
  | some e =>
    cases hd : e.silence with
    | none => simp only [Part.silenceExpiry, he, hd]; rfl
    | some d => exact (ZoneStep.silenceExpiry he hd).sameRate

theorem noticeExpiry (p : Part) (u : UnitId) : SameRate p (p.noticeExpiry u) := by
  cases hn : (p.entry u).bind (·.notice) with
  | none => simp only [Part.noticeExpiry, hn]; rfl
  | some n => exact ((AirStep.clearNotice (p.reach n.deadline) true u).trans (ZoneStep.noticeExpiry hn).toAir).sameRate

/-! ### The working profile (R199, R202, R203) -/

theorem setParam (p : Part) (q : Param) (v : SetValue) : SameRate p (p.setParam q v) := by
  unfold Part.setParam
  dsimp only
  split
  · exact (AirStep.enableZone { p with profile := _ } _ _).sameRate
  · exact enableRack { p with profile := _ } _ _
  · split
    · rfl
    · split
      · exact (EngineStep.readyEvalAll { p with profile := _ }).sameRate
      · rfl
  · rfl

theorem setParams (p : Part) (fs : List (Param × SetValue)) : SameRate p (p.setParams fs) :=
  SameRate.foldl (fun q (f : Param × SetValue) => setParam q f.1 f.2) fs p

theorem freeDisabled (p : Part) (gone : List EventKind) : SameRate p (p.freeDisabled gone) := by
  refine SameRate.foldl (fun q n => ?_) allIssues p
  split
  · split
    · rfl
    · rfl
  · rfl

theorem withProfile (p : Part) (f : Profile) : SameRate p { p with profile := f } := rfl

theorem setDefaults (p : Part) : SameRate p p.setDefaults := by
  simp only [Part.setDefaults]
  exact (setParams p _).trans (withProfile _ _)

theorem formatRecords (p : Part) : SameRate p p.formatRecords := by
  unfold Part.formatRecords
  dsimp only
  refine SameRate.trans ?_ ((raise _ _ _).trans (raise _ _ _))
  rfl

theorem startOp (p : Part) (op : StoreOp) : SameRate p (p.startOp op) := rfl

theorem format (p : Part) : SameRate p p.format := by
  have aborted := (RackStep.abortJobs p (p.queue.filter (·.work.kind == .refresh)) .format).sameRate
  exact aborted.trans ((formatRecords _).trans ((setDefaults _).trans (startOp _ _)))

theorem load (p : Part) (nv : Nv) : SameRate p (p.load nv) := raise _ .system .start

theorem startRetireSave (p : Part) : SameRate p p.startRetireSave := (EngineStep.startRetireSave p).sameRate

/-! ### The effects of commands on bays, channels, issue records and event kinds -/

theorem enableBay (p : Part) (b : BayRef) : SameRate p (p.enableBay b) := by
  have fresh := (RackStep.setBay p b { p.bay b with strikes := 0, enable := true }).sameRate
  simp only [Part.enableBay]
  split
  · exact fresh
  · refine (fresh.trans (raise _ (.bay b) .bayEnabled)).trans (SameRate.trans ?_ (EngineStep.readyEval _ b).sameRate)
    split
    · exact (RackStep.sessionStart _ b).sameRate
    · rfl

theorem clearFault (p : Part) (b : BayRef) : SameRate p (p.clearFault b) := by
  have cleared := (RackStep.unfaulted p b).sameRate
  simp only [Part.clearFault]
  refine cleared.trans (SameRate.trans ?_ (EngineStep.readyEval _ b).sameRate)
  split
  · exact (RackStep.sessionStart _ b).sameRate
  · rfl

theorem stopChannel (p : Part) (c : ChannelNo) : SameRate p (p.stopChannel c) := by
  have ended := (RackStep.abortJobs p (p.channel c).jobs .stopped).sameRate.trans
    (EngineStep.modChannel _ c fun h => { h with state := .idle, tx := none }).sameRate
  simp only [Part.stopChannel]
  split
  · exact ended
  · exact ended.trans (raise _ _ _)

theorem issueUnit (p : Part) (n : IssueNo) (b : BayRef) (e : Entry) (tune : Option Tune) :
    SameRate p (p.issueUnit n b e tune).1 := by
  cases tune with
  | none => exact (RecordMade.issueUnit_pick p n b e).step.sameRate
  | some t => exact (AirStep.takeClaim p t.tour).sameRate.trans (RecordMade.issueUnit_tune p n b e t).step.sameRate

theorem removeKinds (p : Part) (gone : List EventKind) : SameRate p (p.removeKinds gone) := rfl

theorem reportEnable (p : Part) (on off : List EventKind) : SameRate p (p.reportEnable on off) := by
  simp only [Part.reportEnable]
  exact (withProfile p _).trans ((removeKinds _ _).trans (freeDisabled _ _))

end SameRate

end Sys2Proof.Machine
end

section
/-! What an owner makes of the part keeps the rate of the host line, command by command. -/

namespace Sys2Proof.Machine

/-- What an owning block makes of a command keeps the rate of the host line. -/
def KeepsRate (o : Owner) : Prop := ∀ nv p, SameRate p (o nv p).1

namespace KeepsRate

/-! ### Commands that read -/

/-- An owner that hands back the part it was given. -/
theorem ofReads {o : Owner} (h : ∀ nv p, (o nv p).1 = p) : KeepsRate o := fun nv p => by rw [h]

theorem tourRead (t : HostField Nat) : KeepsRate (ownTourRead t) := ofReads fun _ _ => by
  unfold ownTourRead; split <;> rfl

theorem unitRead (u : HostField UnitId) : KeepsRate (ownUnitRead u) := ofReads fun _ _ => by
  unfold ownUnitRead
  split
  · rfl
  · split <;> rfl

theorem unitList (a n : HostField Nat) : KeepsRate (ownUnitList a n) := ofReads fun _ _ => by
  unfold ownUnitList; split <;> rfl

theorem retireList (a n : HostField Nat) : KeepsRate (ownRetireList a n) := ofReads fun _ _ => by
  unfold ownRetireList; split <;> rfl

theorem zoneRead (z : HostField Nat) : KeepsRate (ownZoneRead z) := ofReads fun _ _ => by
  unfold ownZoneRead; split <;> rfl

theorem zoneSlots (z : HostField Nat) : KeepsRate (ownZoneSlots z) := ofReads fun _ _ => by
  unfold ownZoneSlots; split <;> rfl

theorem houseRead : KeepsRate ownHouseRead := ofReads fun _ _ => rfl

theorem rackRead (r : HostField Nat) : KeepsRate (ownRackRead r) := ofReads fun _ _ => by
  unfold ownRackRead; split <;> rfl

theorem bayRead (b : HostField BayName) : KeepsRate (ownBayRead b) := ofReads fun _ _ => by
  unfold ownBayRead
  split
  · rfl
  · split <;> rfl

theorem faultRead (b : HostField BayName) : KeepsRate (ownFaultRead b) := ofReads fun _ _ => by
  unfold ownFaultRead
  split
  · rfl
  · split <;> rfl

theorem channelRead (c : HostField Nat) : KeepsRate (ownChannelRead c) := ofReads fun _ _ => by
  unfold ownChannelRead; split <;> rfl

theorem jobRead (j : HostField Nat) : KeepsRate (ownJobRead j) := ofReads fun _ _ => by
  unfold ownJobRead
  split
  · rfl
  · split <;> rfl

theorem jobQueueRead : KeepsRate ownJobQueueRead := ofReads fun _ _ => rfl

theorem imageRead (c : HostField UnitClass) : KeepsRate (ownImageRead c) := ofReads fun _ _ => by
  unfold ownImageRead; split <;> rfl

theorem issueRead (n : HostField Nat) : KeepsRate (ownIssueRead n) := ofReads fun _ _ => by
  unfold ownIssueRead; split <;> rfl

theorem get (n : HostField ParamList) : KeepsRate (ownGet n) := ofReads fun _ _ => by
  unfold ownGet; split <;> rfl

theorem status : KeepsRate ownStatus := ofReads fun _ _ => rfl

/-- A body that spells no verb is refused by the link port itself. -/
theorem malformed : KeepsRate ownMalformed := ofReads fun _ _ => rfl

/-! ### Tours -/

theorem tourOpen (t : HostField Nat) (l : HostField Text) (f c : HostField Nat) :
    KeepsRate (ownTourOpen t l f c) := fun nv p => by
  unfold ownTourOpen
  split
  · exact .unlessRefused (.unlessRefused ((AirStep.setTour p _ _).sameRate.trans (SameRate.raise _ _ _)))
  · rfl

theorem tourStart (t : HostField Nat) : KeepsRate (ownTourStart t) := fun nv p => by
  unfold ownTourStart
  split
  · rfl
  · exact .unlessRefused (.unlessRefused
      ((AirStep.setTour p _ _).trans (ZoneStep.restream_raise _ _ _ _).toAir).sameRate)

theorem tourPause (t : HostField Nat) : KeepsRate (ownTourPause t) := fun nv p => by
  unfold ownTourPause
  split
  · rfl
  · exact .unlessRefused ((AirStep.setTour p _ _).trans (ZoneStep.restream_raise _ _ _ _).toAir).sameRate

theorem tourClose (t : HostField Nat) : KeepsRate (ownTourClose t) := fun nv p => by
  unfold ownTourClose
  split
  · rfl
  · split
    · rfl
    · rfl
    · exact (AirStep.closeTour p _).sameRate

theorem tourCapacity (t c : HostField Nat) : KeepsRate (ownTourCapacity t c) := fun nv p => by
  unfold ownTourCapacity
  split
  · exact .unlessRefused (.unlessRefused (AirStep.setTour p _ _).sameRate)
  · rfl

theorem tourVoiceAdd (t l : HostField Nat) (u : HostField UnitId) : KeepsRate (ownTourVoiceAdd t l u) := fun nv p => by
  unfold ownTourVoiceAdd
  split
  · refine .unlessRefused (.unlessRefused ?_)
    split
    · rfl
    · exact .unlessRefused (.unlessRefused (.unlessRefused (.unlessRefused (.unlessRefused
        ((AirStep.setTour p _ _).trans (ZoneStep.addSource p _ _ _).toAir).sameRate))))
  · rfl

theorem tourVoiceDrop (t l : HostField Nat) : KeepsRate (ownTourVoiceDrop t l) := fun nv p => by
  unfold ownTourVoiceDrop
  split
  · refine .unlessRefused ?_
    split
    · rfl
    · exact .unlessRefused ((AirStep.dropSource p _ _).trans (ZoneStep.restream_raise _ _ _ _).toAir).sameRate
  · rfl

/-! ### Units -/

theorem unitForget (u : HostField UnitId) : KeepsRate (ownUnitForget u) := fun nv p => by
  unfold ownUnitForget
  split
  · rfl
  · split
    · rfl
    · exact .unlessRefused ((AirStep.strip p _).trans (AirStep.removeEntry _ _)).sameRate

theorem unitUnassign (u : HostField UnitId) : KeepsRate (ownUnitUnassign u) := fun nv p => by
  unfold ownUnitUnassign
  split
  · rfl
  · split
    · rfl
    · refine .unlessRefused ?_
      dsimp only
      split
      · exact ((AirStep.unassign p _).trans (AirStep.raiseNotice _ _ _ _ _)).sameRate
      · exact (AirStep.unassign p _).sameRate

theorem unitRetune (u : HostField UnitId) (t l : HostField Nat) : KeepsRate (ownUnitRetune u t l) := fun nv p => by
  unfold ownUnitRetune
  split
  · split
    · rfl
    · refine .unlessRefused (.unlessRefused (.unlessRefused (.unlessRefused (.unlessRefused (.unlessRefused ?_)))))
      dsimp only
      exact (AirStep.raiseNotice p _ _ _ _).sameRate
  · rfl

theorem unitLocate (u : HostField UnitId) : KeepsRate (ownUnitLocate u) := fun nv p => by
  unfold ownUnitLocate
  split
  · rfl
  · split
    · rfl
    · refine .unlessRefused (.unlessRefused ?_)
      dsimp only
      exact (AirStep.raiseNotice p _ _ _ _).sameRate

theorem unitRetire (u : HostField UnitId) : KeepsRate (ownUnitRetire u) := fun nv p => by
  unfold ownUnitRetire
  split
  · rfl
  · dsimp only
    split
    · split
      · rfl
      · exact .unlessRefused (.finished nv (RackStep.listRetired p _).sameRate)
    · exact .finished nv (RackStep.retire p _).sameRate

theorem retirePurge (u : HostField UnitId) : KeepsRate (ownRetirePurge u) := fun nv p => by
  unfold ownRetirePurge
  split
  · rfl
  · exact .unlessRefused (.finished nv ((RackStep.unlistRetired p _).trans (RackStep.purgeEntry _ _)).sameRate)

/-! ### Zones and the house program -/

theorem zoneStatsClear (z : HostField ZoneSel) : KeepsRate (ownZoneStatsClear z) := fun nv p => by
  unfold ownZoneStatsClear
  split
  · rfl
  · exact (ZoneStep.foldl (fun q z => ZoneStep.modZone q z Zone.clearStats) _ p).sameRate

theorem houseStart (z : HostField ZoneList) (l : HostField (List Nat)) : KeepsRate (ownHouseStart z l) := fun nv p => by
  unfold ownHouseStart
  split
  · exact .unlessRefused (.unlessRefused (ZoneStep.houseStart p _ _).sameRate)
  · rfl

theorem houseZones (z : HostField ZoneList) : KeepsRate (ownHouseZones z) := fun nv p => by
  unfold ownHouseZones
  split
  · rfl
  · exact .unlessRefused (ZoneStep.houseZones p _).sameRate

theorem houseStop : KeepsRate ownHouseStop := fun nv p => by
  unfold ownHouseStop
  exact .unlessRefused (ZoneStep.houseStop p).sameRate

/-! ### Racks and bays -/

theorem bayDisable (b : HostField BayName) : KeepsRate (ownBayDisable b) := fun nv p => by
  unfold ownBayDisable
  split
  · rfl
  · refine .unlessRefused (.unlessRefused ?_)
    split
    · rfl
    · exact .finished nv (RackStep.disableBay p _).sameRate

theorem bayEnable (b : HostField BayName) : KeepsRate (ownBayEnable b) := fun nv p => by
  unfold ownBayEnable
  split
  · rfl
  · exact .unlessRefused (.finished nv (SameRate.enableBay p _))

theorem faultClear (b : HostField BayName) : KeepsRate (ownFaultClear b) := fun nv p => by
  unfold ownFaultClear
  split
  · rfl
  · exact .unlessRefused (.unlessRefused (.finished nv (SameRate.clearFault p _)))

/-! ### Channels and jobs -/

theorem channelClear (c : HostField Nat) : KeepsRate (ownChannelClear c) := fun nv p => by
  unfold ownChannelClear
  split
  · rfl
  · exact .unlessRefused (.finished nv (EngineStep.modChannel p _ _).sameRate)

theorem channelStop (c : HostField Nat) : KeepsRate (ownChannelStop c) := fun nv p => by
  unfold ownChannelStop
  split
  · rfl
  · exact .finished nv (SameRate.stopChannel p _)

theorem jobMaint (b : HostField BayName) (o : HostField MaintOp) (a : HostField Area) (x n : HostField Nat)
    (d : HostField (List Byte)) : KeepsRate (ownJobMaint b o a x n d) := fun nv p => by
  unfold ownJobMaint
  split
  · split
    · rfl
    · split
      · rfl
      · exact .finished nv (EngineStep.joinQueue p _ _ _).sameRate
  · rfl

theorem jobRefresh (b : HostField BayName) : KeepsRate (ownJobRefresh b) := fun nv p => by
  unfold ownJobRefresh
  split
  · rfl
  · split
    · rfl
    · split
      · rfl
      · refine .unlessRefused (.unlessRefused ?_)
        split
        · rfl
        · exact .finished nv ((RackStep.modBay p _ _).sameRate.trans (EngineStep.joinQueue _ _ _ _).sameRate)

theorem jobCancel (j : HostField Nat) : KeepsRate (ownJobCancel j) := fun nv p => by
  unfold ownJobCancel
  split
  · rfl
  · split
    · rfl
    · exact .unlessRefused (.finished nv (RackStep.endJob p _ _).sameRate)

theorem jobStatsClear : KeepsRate ownJobStatsClear := fun _ _ => rfl

/-! ### Image slots -/

theorem imageBegin (c : HostField UnitClass) (r n : HostField Nat) (k : HostField (BitVec 32)) :
    KeepsRate (ownImageBegin c r n k) := fun nv p => by
  unfold ownImageBegin
  split
  · exact .unlessRefused (.unlessRefused
      (((SameRate.setSlot p _ _).trans (SameRate.startOp _ _)).trans (SameRate.raise _ _ _)))
  · rfl

theorem imagePage (c : HostField UnitClass) (n : HostField Nat) (d : HostField (List Byte)) :
    KeepsRate (ownImagePage c n d) := fun nv p => by
  unfold ownImagePage
  split
  · split
    · refine .unlessRefused (.unlessRefused (.unlessRefused ?_))
      dsimp only
      exact (SameRate.setSlot p _ _).trans (SameRate.startOp _ _)
    · rfl
  · rfl

theorem imageSeal (c : HostField UnitClass) : KeepsRate (ownImageSeal c) := fun nv p => by
  unfold ownImageSeal
  split
  · rfl
  · split
    · exact .unlessRefused (.finished nv ((((EngineStep.noteCorrection p _).sameRate.trans
        (SameRate.setSlot _ _ _)).trans (SameRate.startOp _ _)).trans (SameRate.raise _ _ _)))
    · rfl

/-! ### Issue records -/

theorem issue (r : HostField Nat) (c : HostField UnitClass) (u : HostField UnitId) (t l : HostField Nat) :
    KeepsRate (ownIssue r c u t l) := fun nv p => by
  unfold ownIssue
  split
  · rfl
  · split
    · rfl
    · split
      · rfl
      · split
        · rfl
        · exact .finished nv (SameRate.issueUnit p _ _ _ _)

theorem issueCancel (n : HostField Nat) : KeepsRate (ownIssueCancel n) := fun nv p => by
  unfold ownIssueCancel
  split
  · rfl
  · exact .unlessRefused (.finished nv (RackStep.settle p _ _).sameRate)

/-! ### Settings -/

theorem reportEnable (a b : HostField KindList) : KeepsRate (ownReportEnable a b) := fun nv p => by
  unfold ownReportEnable
  split
  · rfl
  · dsimp only
    exact SameRate.reportEnable p _ _

theorem set (fs : List (Param × SetValue)) : KeepsRate (ownSet fs) := fun nv p => by
  unfold ownSet
  exact .unlessRefused (.unlessRefused (.unlessRefused (.finished nv (SameRate.setParams p fs))))

theorem profileSave : KeepsRate ownProfileSave := fun nv p => by
  unfold ownProfileSave
  exact .unlessRefused (SameRate.startOp p _)

theorem storeFormat : KeepsRate ownStoreFormat := fun nv p => by
  unfold ownStoreFormat
  exact .unlessRefused (.unlessRefused (.finished nv (SameRate.format p)))

theorem restart : KeepsRate ownRestart := ofReads fun _ _ => by unfold ownRestart; split <;> rfl

end KeepsRate

end Sys2Proof.Machine
end

section
/-! The commands of the host line as rows of the machine: each host verb is a command with an owner, and a COMMAND
frame is the verb its body spells, or is refused by the link port. -/

namespace Sys2Proof

/-- The tag of a host verb's own row. -/
def Instr.verbTag : Instr → Option Byte
  | .command _ _ => none
  | i => i.hostTag

theorem Instr.hostTag_of_verbTag {i : Instr} {tag : Byte} (h : i.verbTag = some tag) : i.hostTag = some tag := by
  unfold Instr.verbTag at h
  split at h
  · cases h
  · exact h

end Sys2Proof

namespace Sys2Proof.Machine

/-! ### The row of a host verb -/

/-- The command is taken by the link port with this tag and handed to an owner that keeps the rate. -/
def HostRow (tag : Byte) (i : Instr) : Prop :=
  ∃ verb o, KeepsRate o ∧ ∀ s, exec i s = .next (s.hostCommand tag verb o)

theorem verb_row {i : Instr} {tag : Byte} (h : i.verbTag = some tag) : HostRow tag i := by
  cases i <;> cases h
  case tourOpen => exact ⟨_, _, .tourOpen _ _ _ _, fun _ => rfl⟩
  case tourStart => exact ⟨_, _, .tourStart _, fun _ => rfl⟩
  case tourPause => exact ⟨_, _, .tourPause _, fun _ => rfl⟩
  case tourClose => exact ⟨_, _, .tourClose _, fun _ => rfl⟩
  case tourCapacity => exact ⟨_, _, .tourCapacity _ _, fun _ => rfl⟩
  case tourRead => exact ⟨_, _, .tourRead _, fun _ => rfl⟩
  case tourVoiceAdd => exact ⟨_, _, .tourVoiceAdd _ _ _, fun _ => rfl⟩
  case tourVoiceDrop => exact ⟨_, _, .tourVoiceDrop _ _, fun _ => rfl⟩
  case unitRead => exact ⟨_, _, .unitRead _, fun _ => rfl⟩
  case unitList => exact ⟨_, _, .unitList _ _, fun _ => rfl⟩
  case unitForget => exact ⟨_, _, .unitForget _, fun _ => rfl⟩
  case unitUnassign => exact ⟨_, _, .unitUnassign _, fun _ => rfl⟩
  case unitRetune => exact ⟨_, _, .unitRetune _ _ _, fun _ => rfl⟩
  case unitLocate => exact ⟨_, _, .unitLocate _, fun _ => rfl⟩
  case unitRetire => exact ⟨_, _, .unitRetire _, fun _ => rfl⟩
  case retirePurge => exact ⟨_, _, .retirePurge _, fun _ => rfl⟩
  case retireList => exact ⟨_, _, .retireList _ _, fun _ => rfl⟩
  case zoneRead => exact ⟨_, _, .zoneRead _, fun _ => rfl⟩
  case zoneSlots => exact ⟨_, _, .zoneSlots _, fun _ => rfl⟩
  case zoneStatsClear => exact ⟨_, _, .zoneStatsClear _, fun _ => rfl⟩
  case houseStart => exact ⟨_, _, .houseStart _ _, fun _ => rfl⟩
  case houseZones => exact ⟨_, _, .houseZones _, fun _ => rfl⟩
  case houseStop => exact ⟨_, _, .houseStop, fun _ => rfl⟩
  case houseRead => exact ⟨_, _, .houseRead, fun _ => rfl⟩
  case rackRead => exact ⟨_, _, .rackRead _, fun _ => rfl⟩
  case bayRead => exact ⟨_, _, .bayRead _, fun _ => rfl⟩
  case bayDisable => exact ⟨_, _, .bayDisable _, fun _ => rfl⟩
  case bayEnable => exact ⟨_, _, .bayEnable _, fun _ => rfl⟩
  case faultClear => exact ⟨_, _, .faultClear _, fun _ => rfl⟩
  case faultRead => exact ⟨_, _, .faultRead _, fun _ => rfl⟩
  case channelClear => exact ⟨_, _, .channelClear _, fun _ => rfl⟩
  case channelStop => exact ⟨_, _, .channelStop _, fun _ => rfl⟩
  case channelRead => exact ⟨_, _, .channelRead _, fun _ => rfl⟩
  case jobMaint => exact ⟨_, _, .jobMaint _ _ _ _ _ _, fun _ => rfl⟩
  case jobRefresh => exact ⟨_, _, .jobRefresh _, fun _ => rfl⟩
  case jobCancel => exact ⟨_, _, .jobCancel _, fun _ => rfl⟩
  case jobRead => exact ⟨_, _, .jobRead _, fun _ => rfl⟩
  case jobQueueRead => exact ⟨_, _, .jobQueueRead, fun _ => rfl⟩
  case jobStatsClear => exact ⟨_, _, .jobStatsClear, fun _ => rfl⟩
  case imageBegin => exact ⟨_, _, .imageBegin _ _ _ _, fun _ => rfl⟩
  case imagePage => exact ⟨_, _, .imagePage _ _ _, fun _ => rfl⟩
  case imageSeal => exact ⟨_, _, .imageSeal _, fun _ => rfl⟩
  case imageRead => exact ⟨_, _, .imageRead _, fun _ => rfl⟩
  case issue => exact ⟨_, _, .issue _ _ _ _ _, fun _ => rfl⟩
  case issueCancel => exact ⟨_, _, .issueCancel _, fun _ => rfl⟩
  case issueRead => exact ⟨_, _, .issueRead _, fun _ => rfl⟩
  case reportEnable => exact ⟨_, _, .reportEnable _ _, fun _ => rfl⟩
  case set => exact ⟨_, _, .set _, fun _ => rfl⟩
  case get => exact ⟨_, _, .get _, fun _ => rfl⟩
  case profileSave => exact ⟨_, _, .profileSave, fun _ => rfl⟩
  case storeFormat => exact ⟨_, _, .storeFormat, fun _ => rfl⟩
  case restart => exact ⟨_, _, .restart, fun _ => rfl⟩
  case status => exact ⟨_, _, .status, fun _ => rfl⟩

/-- COMMAND and a verb's own row share the verb's meaning. -/
theorem hostVerb_eq_exec {i : Instr} {tag : Byte} (h : i.verbTag = some tag) (s : State) :
    hostVerb i s = exec i s := by
  cases i <;> cases h <;> rfl

/-! ### The verb a body spells (R194) -/

/-- Whatever the fields, the verb makes a command of the host line that carries the frame's tag. -/
def Verb.carriesTag (v : Verb) : Prop := ∀ tag fs, (v.make tag fs).verbTag = some tag

theorem carriesTag_of_mem_allVerbs {v : Verb} (h : v ∈ allVerbs) : v.carriesTag := by
  have all : ∀ v ∈ allVerbs, v.carriesTag := by
    simp only [allVerbs, verbsA, verbsB, verbsC, verbsD, List.forall_mem_append, List.forall_mem_cons,
      Verb.carriesTag, verb, Instr.verbTag, Instr.hostTag]
    simp
  exact all v h

theorem verbTag_of_parseCommand {tag : Byte} {body : List Byte} {i : Instr} (h : parseCommand tag body = some i) :
    i.verbTag = some tag := by
  unfold parseCommand at h
  split at h
  · dsimp only at h
    split at h
    · cases h
    · split at h
      · split at h
        · obtain ⟨fs, -, rfl⟩ := Option.map_eq_some_iff.mp h
          rfl
        · cases h
      · split at h
        · next v found =>
          split at h
          · cases h
            exact carriesTag_of_mem_allVerbs (List.mem_of_find?_eq_some found) tag _
          · cases h
        · cases h
  · cases h

theorem execCommand_spelled {tag : Byte} {body : List Byte} {i : Instr} (h : parseCommand tag body = some i)
    (s : State) : execCommand tag body s = exec i s := by
  simp only [execCommand, h]
  exact hostVerb_eq_exec (verbTag_of_parseCommand h) s

theorem execCommand_malformed {tag : Byte} {body : List Byte} (h : parseCommand tag body = none) (s : State) :
    execCommand tag body s = .next (s.hostCommand tag (echoVerb body) ownMalformed) := by
  simp only [execCommand, h]

/-- A COMMAND frame is a row of the host line, whatever its body. -/
theorem command_row (tag : Byte) (body : List Byte) : HostRow tag (.command tag body) := by
  cases h : parseCommand tag body with
  | none => exact ⟨_, _, .malformed, execCommand_malformed h⟩
  | some i =>
    obtain ⟨verb, o, rate, row⟩ := verb_row (verbTag_of_parseCommand h)
    exact ⟨verb, o, rate, fun s => (execCommand_spelled h s).trans (row s)⟩

theorem host_row {i : Instr} {tag : Byte} (h : i.hostTag = some tag) : HostRow tag i := by
  by_cases frame : ∃ t body, i = .command t body
  · obtain ⟨t, body, rfl⟩ := frame
    cases h
    exact command_row _ body
  · refine verb_row ?_
    unfold Instr.verbTag
    split
    · exact absurd ⟨_, _, rfl⟩ frame
    · exact h

/-- Settles O12: the verb that a body spells carries the frame's tag, and its row is what COMMAND carries out. -/
theorem commandFrameActsAsTheVerbItSpells : Obligations.CommandFrameActsAsTheVerbItSpells := by
  refine ⟨fun s tag body i spelled => ?spelled, fun s tag body takes malformed => ?malformed⟩
  case spelled =>
    have verbTag := verbTag_of_parseCommand spelled
    obtain ⟨_, _, -, row⟩ := verb_row verbTag
    exact ⟨Instr.hostTag_of_verbTag verbTag, _, (execCommand_spelled spelled s).trans (row s), row s⟩
  case malformed => exact exec_answered takes (execCommand_malformed malformed s) rfl

end Sys2Proof.Machine
end

section
/-! What every command leaves: the queue, canonical image memory, the bound on waiting BUSY replies, nothing ready at a
free serializer, and, but for a full reset, the rate of the host line. -/

namespace Sys2Proof.Machine

/-- The state with the receive framer in another state. -/
def State.withFramer (s : State) (f : Framer) : State := { s with link := { s.link with framer := f } }

/-! ### The relations -/

/-- The queue of commands stays, and image memory canonical and at most four waiting BUSY replies are kept. -/
structure SoundStep (s t : State) : Prop where
  pending : t.pending = s.pending
  canonical : s.nv.wf = true → t.nv.wf = true
  busy : s.link.busyWaiting ≤ 4 → t.link.busyWaiting ≤ 4

/-- A sound step that keeps the rate of the host line too. -/
structure QuietStep (s t : State) : Prop extends SoundStep s t where
  rate : SameRate s.part t.part

namespace QuietStep

theorem refl (s : State) : QuietStep s s := ⟨⟨rfl, id, id⟩, rfl⟩

theorem trans {s t u : State} (h : QuietStep s t) (k : QuietStep t u) : QuietStep s u :=
  ⟨⟨k.pending.trans h.pending, k.canonical ∘ h.canonical, k.busy ∘ h.busy⟩, h.rate.trans k.rate⟩

theorem foldl {α : Type} {f : State → α → State} (h : ∀ s a, QuietStep s (f s a)) (l : List α) (s : State) :
    QuietStep s (l.foldl f s) := by
  induction l generalizing s with
  | nil => exact refl s
  | cons a l ih => exact (h s a).trans (ih _)

/-- A change of the part alone. -/
theorem ofPart {s : State} {q : Part} (h : SameRate s.part q) : QuietStep s { s with part := q } :=
  ⟨⟨rfl, id, id⟩, h⟩

/-- A change of the link port alone that adds no BUSY reply. -/
theorem ofLink {s : State} {l : Link} (h : l.busyWaiting ≤ s.link.busyWaiting) : QuietStep s { s with link := l } :=
  ⟨⟨rfl, id, Nat.le_trans h⟩, rfl⟩

theorem framer (s : State) (f : Framer) : QuietStep s (s.withFramer f) :=
  ofLink (Nat.le_refl _)

theorem freeLine (s : State) : QuietStep s s.freeLine := ofLink (Nat.le_refl _)

theorem arbitrate (s : State) : QuietStep s s.arbitrate where
  pending := State.arbitrate_pending s
  canonical h := by rw [State.arbitrate_nv]; exact h
  busy h := Nat.le_trans (State.arbitrate_busyWaiting s) h
  rate := (State.arbitrate_report s).sameRate

/-! ### Host commands (R194, R195) -/

theorem reply (s : State) (r : ResultWord) (fs : Fields) : QuietStep s (s.reply r fs) := by
  unfold State.reply
  split
  · exact ofLink (by simp [Link.busyWaiting])
  · exact refl s

theorem busyReply (s : State) (tag : Byte) (verb : Text) : QuietStep s (s.busy tag verb) := by
  unfold State.busy
  split
  · next room =>
    refine ⟨⟨rfl, id, fun _ => ?_⟩, rfl⟩
    have added : ({ s.link with ready := s.link.ready ++ [⟨false, tag, verb, .busy, []⟩] } : Link).busyWaiting =
        s.link.busyWaiting + 1 := List.countP_append
    rw [added]
    exact room
  · exact refl s

theorem settleAnswer (s : State) (a : Answer) : QuietStep s (s.settleAnswer a) := by
  cases a with
  | reply r fs => exact reply s r fs
  | waits => exact refl s
  | restart => exact (reply s .ok []).trans (ofLink (Nat.le_refl _))

theorem carryOut (s : State) (tag : Byte) (verb : Text) {o : Owner} (h : KeepsRate o) :
    QuietStep s (s.carryOut tag verb o) := by
  have filled : QuietStep s
      { s with link := { s.link with slot := some ⟨tag, verb, false⟩ }, part := (o s.nv s.part).1 } :=
    ⟨⟨rfl, id, id⟩, h s.nv s.part⟩
  exact filled.trans ((settleAnswer _ _).trans (arbitrate _))

theorem hostCommand (s : State) (tag : Byte) (verb : Text) {o : Owner} (h : KeepsRate o) :
    QuietStep s (s.hostCommand tag verb o) := by
  unfold State.hostCommand
  split
  · exact refl s
  · dsimp only
    split
    · exact framer s .hunting
    · refine (framer s .hunting).trans ?_
      split
      · exact (busyReply _ tag verb).trans (arbitrate _)
      · exact carryOut _ tag verb h

/-! ### Bytes of the host line (R191 to R193) -/

theorem audio (s : State) (track : Byte) (body : List Byte) : QuietStep s (s.audio track body) := by
  unfold State.audio
  dsimp only
  split
  · exact (framer s .hunting).trans (ofPart rfl)
  · exact framer s .hunting

theorem judgeFrame (s : State) (bytes : List Byte) (length : Nat) : QuietStep s (s.judgeFrame bytes length) := by
  unfold State.judgeFrame
  dsimp only
  refine (framer s .hunting).trans ?_
  split
  · split
    · next tag body _ =>
      split
      · obtain ⟨verb, o, rate, row⟩ := command_row tag body
        have taken (u : State) : Result.state u (execCommand tag body u) = u.hostCommand tag verb o :=
          congrArg (Result.state u) (row u)
        rw [taken]
        exact hostCommand _ tag verb rate
      · split
        · exact audio _ tag body
        · exact refl _
    · exact refl _
  · exact refl _

theorem receiveByte (s : State) (b : Byte) : QuietStep s (s.receiveByte b) := by
  unfold State.receiveByte
  split
  · exact framer s _
  · split
    · exact framer s _
    · split
      · exact framer s _
      · exact framer s _
    · split
      · exact judgeFrame s _ _
      · exact framer s _
    · exact refl s

/-! ### The ends of sendings and of store operations -/

theorem busyReplySent (s : State) : QuietStep s s.busyReplySent := by
  unfold State.busyReplySent
  split
  · split
    · exact refl s
    · exact freeLine s
  · exact refl s

theorem reportSent (s : State) : QuietStep s s.reportSent := by
  cases line : s.link.line with
  | none => simp only [State.reportSent, line]; exact refl s
  | some x =>
    cases x with
    | reply r => simp only [State.reportSent, line]; exact refl s
    | report r =>
      rw [State.reportSent_eq line]
      exact (freeLine s).trans (ofPart (by rw [Part.freeShown_frame]; rfl))

theorem endOp (s : State) (op : StoreOp) : QuietStep s (s.endOp op) where
  pending := rfl
  canonical := Nv.wf_completed s.part op
  busy := id
  rate := SameRate.trans (SameRate.refl s.part) (SameRate.startRetireSave _)

theorem profileSaved (s : State) : QuietStep s s.profileSaved := by
  unfold State.profileSaved
  split
  · exact (endOp s _).trans (reply _ _ _)
  · exact refl s

theorem retireSaved (s : State) : QuietStep s s.retireSaved := by
  unfold State.retireSaved
  split
  · exact endOp s _
  · exact refl s

theorem regionErased (s : State) : QuietStep s s.regionErased := by
  unfold State.regionErased
  split
  · exact (endOp s _).trans (reply _ _ _)
  · exact refl s

theorem pageWritten (s : State) : QuietStep s s.pageWritten := by
  unfold State.pageWritten
  split
  · exact (endOp s _).trans (reply _ _ _)
  · exact refl s

/-- The end of the step's last event. -/
theorem finish (s : State) : QuietStep s { s with part := s.part.finish s.nv } :=
  ofPart (SameRate.finish s.nv (SameRate.refl s.part))

theorem headerWritten (s : State) : QuietStep s s.headerWritten := by
  unfold State.headerWritten
  split
  · next c h mismatch _ =>
    dsimp only
    refine ((endOp s (.headerWrite c h mismatch)).trans (finish _)).trans ?_
    split
    · exact reply _ _ _
    · exact reply _ _ _
  · exact refl s

/-! ### A POLL_ANSWER (R99, R196) -/

theorem pollEvent (s : State) (r : RackNo) (e : PollEvent) : QuietStep s (s.pollEvent r e) :=
  (ofPart ((RackStep.pollEvent s.nv s.part r e).trans (RackStep.settleEvent s.nv _)).sameRate).trans (arbitrate _)

theorem takeEvents (s : State) (r : RackNo) (m : PollMessage) (es : List PollEvent) :
    QuietStep s (s.takeEvents r m es) := by
  unfold State.takeEvents
  split
  · exact foldl (fun u e => pollEvent u r e) es s
  · exact refl s

theorem pollAnswer (r : RackNo) (es : List PollEvent) (s : State) : QuietStep s (s.pollAnswer r es) := by
  unfold State.pollAnswer
  split
  · exact ((ofPart (SameRate.pollAnswered s.part r _)).trans (takeEvents _ r _ es)).trans (finish _)
  · exact refl s

end QuietStep

/-! ### Full resets -/

theorem SoundStep.fullReset (s : State) (cause : ResetCause) (x : Straps) : SoundStep s (s.fullReset cause x) where
  pending := rfl
  canonical := Nv.wf_interrupted s.part.freeCount s.part.store.op
  busy _ := Nat.zero_le 4

theorem SoundStep.replySent (s : State) : SoundStep s s.replySent := by
  have freed : SoundStep s { s.freeLine with link := { s.freeLine.link with slot := none } } := ⟨rfl, id, id⟩
  unfold State.replySent
  split
  · split
    · dsimp only
      split
      · split
        · exact ⟨rfl, Nv.wf_interrupted s.part.freeCount s.part.store.op, fun _ => Nat.zero_le 4⟩
        · exact freed
      · exact freed
    · exact (QuietStep.refl s).toSoundStep
  · exact (QuietStep.refl s).toSoundStep

/-! ### The row of every command -/

/-- What a command is to the machine: one of the host line with its owner, an event, a full reset, the end of the load,
or the end of the outstanding reply, after which a full reset may follow. -/
inductive Row (i : Instr) : Prop where
  | host {tag : Byte} (row : HostRow tag i)
  | event {f : State → State} (quiet : ∀ s, QuietStep s (f s)) (row : ∀ s, exec i s = .next (s.event f))
  | fullReset {x : Straps} (power : i = .powerOn x ∨ i = .resetLine x)
  | load (done : i = .startUpLoadDone)
  | replySent (sent : i = .replySent)

/-- An event that changes the part alone. -/
theorem Row.ofPart {i : Instr} {f : Nv → Part → Part} (h : ∀ nv p, SameRate p (f nv p))
    (row : ∀ s, exec i s = .next (s.partEvent f)) : Row i :=
  .event (fun s => QuietStep.ofPart (h s.nv s.part)) row

/-- An event that changes the part alone, with what is served at its end. -/
theorem Row.ofFinished {i : Instr} {f : Part → Part} (h : ∀ p, SameRate p (f p))
    (row : ∀ s, exec i s = .next (s.partEvent fun nv p => (f p).finish nv)) : Row i :=
  .ofPart (fun nv p => (h p).finish nv) row

theorem exec_row (i : Instr) : Row i := by
  cases i with
  | powerOn x => exact .fullReset (.inl rfl)
  | resetLine x => exact .fullReset (.inr rfl)
  | startUpLoadDone => exact .load rfl
  | replySent => exact .replySent rfl
  | lineBreak | characterError => exact .event (fun s => .framer s .hunting) fun _ => rfl
  | hostFrameDiscarded bytes => exact .event (QuietStep.foldl QuietStep.receiveByte bytes) fun _ => rfl
  | audio track body => exact .event (fun s => .audio s track body) fun _ => rfl
  | busyReplySent => exact .event .busyReplySent fun _ => rfl
  | reportSent => exact .event .reportSent fun _ => rfl
  | profileSaveDone => exact .event .profileSaved fun _ => rfl
  | retireListSaveDone => exact .event .retireSaved fun _ => rfl
  | regionEraseDone => exact .event .regionErased fun _ => rfl
  | imagePageWriteDone => exact .event .pageWritten fun _ => rfl
  | headerWriteDone => exact .event .headerWritten fun _ => rfl
  | zoneHello z => exact .ofPart (fun _ p => (AirStep.zoneHello p z).sameRate) fun _ => rfl
  | cycleMark z m =>
    refine .ofPart (fun _ p => ?_) fun _ => rfl
    split
    · exact .boundary p z m
    · rfl
  | downTimerExpiry z => exact .ofPart (fun _ p => .downExpiry p z) fun _ => rfl
  | housePeriodElapse => exact .ofPart (fun _ p => .houseElapse p) fun _ => rfl
  | lingerExpiry z st =>
    refine .ofPart (fun _ p => ?_) fun _ => rfl
    split
    · exact (ZoneStep.modZone p z _).sameRate
    · rfl
  | silenceExpiry u => exact .ofPart (fun _ p => .silenceExpiry p u) fun _ => rfl
  | noticeLifeExpiry u => exact .ofPart (fun _ p => .noticeExpiry p u) fun _ => rfl
  | pollTimerElapse r => exact .ofFinished (fun p => .pollElapse p r) fun _ => rfl
  | busTurnTimeout => exact .ofFinished (fun p => .turnTimeout p) fun _ => rfl
  | rackHello r count revision =>
    exact .ofPart (fun nv p => .answered (fun _ q => .rackHello q r count revision) nv p r) fun _ => rfl
  | setupDone r => exact .ofPart (fun nv p => .answered (fun m q => .setupDone q r m) nv p r) fun _ => rfl
  | surveyAnswer r seen =>
    exact .ofPart (fun nv p => .answered (fun m q => .surveyAnswer nv q r m seen) nv p r) fun _ => rfl
  | pollAnswer r es => exact .event (.pollAnswer r es) fun _ => rfl
  | dockAccept r => exact .ofFinished (fun p => .dockAccept p r) fun _ => rfl
  | rampTimerElapse r => exact .ofFinished (fun p => .rampElapse p r) fun _ => rfl
  | holdTimerElapse r => exact .ofFinished (fun p => .holdElapse p r) fun _ => rfl
  | chargeWatchExpiry b => exact .ofFinished (fun p => .watchExpiry p b) fun _ => rfl
  | dockNoAnswerLimit c => exact .ofFinished (fun p => .noAnswer p c) fun _ => rfl
  | limitTimerExpiry n => exact .ofFinished (fun p => .limitExpiry p n) fun _ => rfl
  | pickTimerExpiry n => exact .ofFinished (fun p => .pickExpiry p n) fun _ => rfl
  | _ => exact .host (host_row rfl)

/-! ### Nothing ready at a free serializer (R196) -/

theorem State.event_settled {s : State} (h : s.settled = true) (f : State → State) : (s.event f).settled = true := by
  unfold State.event
  split
  · exact h
  · exact State.arbitrate_settled _

theorem State.hostCommand_settled {s : State} (h : s.settled = true) (tag : Byte) (verb : Text) (o : Owner) :
    (s.hostCommand tag verb o).settled = true := by
  unfold State.hostCommand
  split
  · exact h
  · dsimp only
    split
    · exact h
    · split
      · exact State.arbitrate_settled _
      · exact State.arbitrate_settled _

/-! ### What every command leaves -/

/-- The end of the load, as a step. -/
theorem QuietStep.loadDone (s : State) :
    QuietStep s (if s.deaf then ({ s with part := s.part.load s.nv } : State).arbitrate else s) := by
  split
  · exact (ofPart (SameRate.load s.part s.nv)).trans (arbitrate _)
  · exact refl s

theorem SoundStep.event {s : State} {f : State → State} (h : SoundStep s (f s)) : SoundStep s (s.event f) := by
  unfold State.event
  split
  · exact (QuietStep.refl s).toSoundStep
  · have taken := (QuietStep.arbitrate (f s)).toSoundStep
    exact ⟨taken.pending.trans h.pending, taken.canonical ∘ h.canonical, taken.busy ∘ h.busy⟩

theorem QuietStep.event {s : State} {f : State → State} (h : QuietStep s (f s)) : QuietStep s (s.event f) := by
  unfold State.event
  split
  · exact refl s
  · exact h.trans (arbitrate _)

/-- Every command answers a next state by a sound step, and none leaves a free serializer with something ready. -/
theorem exec_sound (i : Instr) (s : State) :
    ∃ t, exec i s = .next t ∧ SoundStep s t ∧ (s.settled = true → t.settled = true) := by
  cases exec_row i with
  | host row =>
    obtain ⟨verb, o, rate, row⟩ := row
    exact ⟨_, row s, (QuietStep.hostCommand s _ verb rate).toSoundStep, fun h => State.hostCommand_settled h _ _ _⟩
  | event quiet row => exact ⟨_, row s, (quiet s).event.toSoundStep, fun h => State.event_settled h _⟩
  | fullReset power =>
    obtain rfl | rfl := power
    · exact ⟨_, rfl, .fullReset s _ _, fun _ => rfl⟩
    · exact ⟨_, rfl, .fullReset s _ _, fun _ => rfl⟩
  | load done =>
    subst done
    refine ⟨_, rfl, (QuietStep.loadDone s).toSoundStep, fun h => ?_⟩
    split
    · exact State.arbitrate_settled _
    · exact h
  | replySent sent =>
    subst sent
    exact ⟨_, rfl, (SoundStep.replySent s).event, fun h => State.event_settled h _⟩

/-- A command that is no full reset, and after which none can follow, keeps the rate. -/
theorem exec_sameRate {i : Instr} {s t : State} (run : exec i s = .next t)
    (other : ∀ x, i ≠ .powerOn x ∧ i ≠ .resetLine x ∧ i ≠ .replySent) : SameRate s.part t.part := by
  cases exec_row i with
  | host row =>
    obtain ⟨verb, o, rate, row⟩ := row
    cases (row s).symm.trans run
    exact (QuietStep.hostCommand s _ verb rate).rate
  | event quiet row =>
    cases (row s).symm.trans run
    exact (quiet s).event.rate
  | @fullReset x power =>
    obtain ⟨notOn, notLine, -⟩ := other x
    exact (power.elim notOn notLine).elim
  | load done =>
    subst done
    cases run
    exact (QuietStep.loadDone s).rate
  | replySent sent => exact ((other ⟨false, false⟩).2.2 sent).elim

theorem State.inv_iff (s : State) :
    s.inv = true ↔ s.nv.wf = true ∧ s.settled = true ∧ s.link.busyWaiting ≤ 4 := by
  simp only [State.inv, Bool.and_eq_true, decide_eq_true_eq, and_assoc]
  rfl

/-- Settles O2: by the row of every command. -/
theorem everyCommandAnswersNextAndKeepsTheQueue : Obligations.EveryCommandAnswersNextAndKeepsTheQueue := by
  intro i s
  obtain ⟨t, run, sound, -⟩ := exec_sound i s
  exact ⟨t, run, sound.pending⟩

/-- Settles O4: the command at the front is taken by the state with the queue's rest, of the same link port and store;
without one a millisecond passes. -/
theorem stepKeepsTheInvariant : Obligations.StepKeepsTheInvariant := by
  intro s t hs run
  obtain ⟨canonical, settled, busy⟩ := s.inv_iff.mp hs
  rw [State.inv_iff]
  unfold step at run
  split at run
  · cases run
    exact ⟨canonical, settled, busy⟩
  · next c rest _ =>
    obtain ⟨u, run', sound, free⟩ := exec_sound c { s with pending := rest }
    cases run'.symm.trans run
    exact ⟨sound.canonical canonical, free settled, sound.busy busy⟩

end Sys2Proof.Machine
end

section
/-! The receive framer, the BUSY answer, the ends of replies and the straps. -/

namespace Sys2Proof.Machine

/-! ### Breaks, character errors and discarded bytes (R191, R193) -/

/-- An event that moves the framer alone: whatever follows it is at most a report taken. -/
theorem exec_moves {i : Instr} {s : State} {f : State → State} {x : Framer} (h : s.deaf = false)
    (row : exec i s = .next (s.event f)) (moved : f s = s.withFramer x) :
    exec i s = .next (s.withFramer x).arbitrate ∧ (s.withFramer x).arbitrate.link.framer = x ∧
      (s.withFramer x).arbitrate.link.slot = s.link.slot ∧ (s.withFramer x).arbitrate.nv = s.nv ∧
      (s.withFramer x).arbitrate.pending = s.pending ∧ ReportStep s.part (s.withFramer x).arbitrate.part := by
  rw [State.event_awake h, moved] at row
  exact ⟨row, State.arbitrate_framer _, State.arbitrate_slot _, State.arbitrate_nv _, State.arbitrate_pending _,
    State.arbitrate_report _⟩

theorem State.receiveByte_hunting {s : State} (h : s.link.framer = .hunting) (b : Byte) :
    s.receiveByte b = s.withFramer (huntByte b) := by
  simp only [State.receiveByte, h]
  rfl

theorem State.receiveByte_opened (s : State) (hi : Byte) :
    (s.withFramer (.inFrame [])).receiveByte hi = s.withFramer (.inFrame [hi]) := rfl

/-- A length outside 2 to 1,026 ends the frame (R193, case 1). -/
theorem State.receiveByte_badLength (s : State) {hi lo : Byte}
    (out : 256 * hi.toNat + lo.toNat < 2 ∨ 1026 < 256 * hi.toNat + lo.toNat) :
    (s.withFramer (.inFrame [hi])).receiveByte lo = s.withFramer (huntPair hi lo) := by
  have bad : ¬(2 ≤ lengthOf hi lo ∧ lengthOf hi lo ≤ maxBody + 2) := by
    simp only [lengthOf, show maxBody + 2 = 1026 from rfl]
    omega
  exact if_neg bad

theorem huntPair_plain {hi lo : Byte} (hhi : hi ≠ 0xD5#8) (hlo : lo ≠ 0xD5#8) : huntPair hi lo = .hunting := by
  simp only [huntPair, huntByte, if_neg hhi, if_neg hlo]

/-- Settles O11: each event is a move of the framer, for discarded bytes the moves of the bytes one by one. -/
theorem lineEventsMoveTheFramerAlone : Obligations.LineEventsMoveTheFramerAlone := by
  refine ⟨fun s h => ?breaks, fun s h hunting => ⟨fun b => ?byte, fun hi lo hhi hlo out => ?length⟩⟩
  case breaks =>
    obtain ⟨run, kept⟩ := exec_moves (i := .lineBreak) (x := .hunting) h rfl rfl
    obtain ⟨run', -⟩ := exec_moves (i := .characterError) (x := .hunting) h rfl rfl
    exact ⟨_, _, run, run', rfl, kept⟩
  case byte =>
    exact ⟨_, exec_moves (i := .hostFrameDiscarded [b]) h rfl (State.receiveByte_hunting hunting b)⟩
  case length =>
    refine ⟨_, exec_moves (i := .hostFrameDiscarded [0xD5#8, hi, lo]) (x := .hunting) h rfl ?_⟩
    have opened : s.receiveByte 0xD5#8 = s.withFramer (.inFrame []) := State.receiveByte_hunting hunting _
    simp only [List.foldl_cons, List.foldl_nil, opened, State.receiveByte_opened, State.receiveByte_badLength s out,
      huntPair_plain hhi hlo]

/-! ### BUSY (R195) -/

/-- While four BUSY replies wait no other is added. -/
theorem State.busy_full {s : State} (full : 4 ≤ s.link.busyWaiting) (tag : Byte) (verb : Text) :
    s.busy tag verb = s := if_neg (Nat.not_lt.mpr full)

theorem State.hostCommand_outstanding {s : State} {tag : Byte} (h : s.deaf = false) (ht : tag ≠ 0) {x : Slot}
    (hs : s.link.slot = some x) (verb : Text) (o : Owner) :
    s.hostCommand tag verb o = ((s.withFramer .hunting).busy tag verb).arbitrate := by
  have ht' : (tag = 0#8) = False := eq_false ht
  simp [State.hostCommand, State.withFramer, h, ht', hs]

/-- Settles O13: the slot is taken, so the command's row is the BUSY answer and at most a report taken. -/
theorem secondCommandIsAnsweredBusy : Obligations.SecondCommandIsAnsweredBusy := by
  intro s i tag x carries h ht hs
  obtain ⟨verb, o, -, row⟩ := host_row carries
  obtain ⟨reported, slot, answered⟩ := State.hostCommand_busy h ht hs verb o
  refine ⟨_, row s, slot, State.hostCommand_nv _ _ _ _, State.hostCommand_pending _ _ _ _, reported,
    fun room => ⟨verb, answered room⟩, fun full => ?_⟩
  rw [State.hostCommand_outstanding h ht hs, State.busy_full (s := s.withFramer .hunting) full]
  exact State.arbitrate_busyWaiting _

/-! ### The ends of replies (R195, R196, R204) -/

/-- The state once the outstanding reply has been sent: the serializer is free and the slot empty. -/
def State.answerSent (s : State) : State := { s with link := { s.link with line := none, slot := none } }

section
variable {s : State} {r : Reply} (line : s.link.line = some (.reply r))
include line

theorem State.replySent_plain (outstanding : r.outstanding = true) {x : Slot} (slot : s.link.slot = some x)
    (stays : x.resetAfter = false) : s.replySent = s.answerSent := by
  simp [State.replySent, line, outstanding, slot, stays, State.answerSent, State.freeLine]

/-- After the reply to RESTART, the full reset with the straps as they stand. -/
theorem State.replySent_restart (outstanding : r.outstanding = true) {x : Slot} (slot : s.link.slot = some x)
    (resets : x.resetAfter = true) :
    s.replySent = s.answerSent.fullReset .restart (Config.strapsAtRestart s.part.freeCount) := by
  simp [State.replySent, line, outstanding, slot, resets, State.answerSent, State.freeLine]

theorem State.busyReplySent_eq (busy : r.outstanding = false) : s.busyReplySent = s.freeLine := by
  simp [State.busyReplySent, line, busy]

end

/-- A full reset leaves nothing to send. -/
theorem State.arbitrate_fullReset (s : State) (cause : ResetCause) (x : Straps) :
    (s.fullReset cause x).arbitrate = s.fullReset cause x := rfl

/-- A free serializer takes the first reply ready. -/
theorem State.arbitrate_takes_reply {s : State} (free : s.link.line = none) {q : Reply} {rest : List Reply}
    (ready : s.link.ready = q :: rest) : s.arbitrate.link.line = some (.reply q) := by
  simp only [State.arbitrate, free, ready]

/-- With no reply ready it takes the report of highest standing, if one is pending. -/
theorem State.arbitrate_takes_report {s : State} (free : s.link.line = none) (ready : s.link.ready = []) :
    s.arbitrate.link.line = s.part.topReport.map fun x => .report (s.part.composeReport x) := by
  cases top : s.part.topReport with
  | none => simp only [State.arbitrate, free, ready, top, Option.map_none]
  | some x => simp only [State.arbitrate, free, ready, top, Option.map_some]

theorem exec_replySent {s u : State} (h : s.deaf = false) (sent : s.replySent = u) :
    exec .replySent s = .next u.arbitrate := by
  rw [← sent, ← State.event_awake h]
  rfl

/-- Settles O14: the state that each sending's end leaves, and then what the free serializer takes. -/
theorem endsOfRepliesFreeTheSlotAndTheSerializer : Obligations.EndsOfRepliesFreeTheSlotAndTheSerializer := by
  refine ⟨fun s r x h line outstanding slot => ?reply, fun s r h line busy => ?busy⟩
  case reply =>
    cases after : x.resetAfter with
    | false =>
      exact ⟨_, exec_replySent h (State.replySent_plain line outstanding slot after), State.arbitrate_slot _,
        State.arbitrate_pending _, fun _ => ⟨State.arbitrate_nv _, State.arbitrate_report _⟩, nofun⟩
    | true =>
      refine ⟨_, exec_replySent h (State.replySent_restart line outstanding slot after), ?_⟩
      rw [State.arbitrate_fullReset]
      exact ⟨rfl, rfl, nofun, fun _ => ⟨rfl, rfl, rfl, rfl⟩⟩
  case busy =>
    have run : exec .busyReplySent s = .next s.freeLine.arbitrate := by
      rw [← State.busyReplySent_eq line busy, ← State.event_awake h]
      rfl
    refine ⟨_, run, State.arbitrate_slot _, State.arbitrate_nv _, State.arbitrate_pending _,
      State.arbitrate_report _, ?_⟩
    cases ready : s.link.ready with
    | nil => exact State.arbitrate_takes_report rfl ready
    | cons q rest => exact State.arbitrate_takes_reply rfl ready

/-! ### The straps (R206) -/

/-- The table of the straps. -/
theorem strapBaud_eq (rate1 rate0 : Bool) :
    strapBaud ⟨rate1, rate0⟩ =
      if rate1 = false ∧ rate0 = false then 115200
      else if rate1 = false ∧ rate0 = true then 460800
      else if rate1 = true ∧ rate0 = false then 921600
      else 115200 := by
  cases rate1 <;> cases rate0 <;> rfl

/-- Settles O8: a full reset takes the rate of its straps, and the row of every other command keeps the rate. -/
theorem strapsSelectTheRateAtEachFullReset : Obligations.StrapsSelectTheRateAtEachFullReset := by
  refine ⟨fun s rate1 rate0 => ?power, fun s r y x h line outstanding slot straps => ?restart,
    fun i s t run other => exec_sameRate run other⟩
  case power => exact ⟨_, _, rfl, rfl, rfl, strapBaud_eq rate1 rate0⟩
  case restart =>
    cases after : y.resetAfter with
    | false =>
      refine ⟨_, exec_replySent h (State.replySent_plain line outstanding slot after), ?_⟩
      exact (State.arbitrate_report _).sameRate
    | true =>
      refine ⟨_, exec_replySent h (State.replySent_restart line outstanding slot after), ?_⟩
      rw [State.arbitrate_fullReset, ← straps]
      exact strapBaud_eq x.rate1 x.rate0

end Sys2Proof.Machine
end

section
/-! REPORT_ENABLE: the disabled kinds it leaves, and the pending reports without them. -/

namespace Sys2Proof.Machine

theorem mem_allKinds (k : EventKind) : k ∈ allKinds := by cases k <;> decide

/-! ### What it leaves (R188, R199) -/

/-- The kinds disabled once those of `on` are enabled and then those of `off` disabled (R199). -/
def disabledAfter (before on off : List EventKind) : List EventKind :=
  allKinds.filter fun k => off.contains k || (before.contains k && !on.contains k)

theorem mem_disabledAfter {before on off : List EventKind} {k : EventKind} :
    k ∈ disabledAfter before on off ↔ k ∈ off ∨ (k ∈ before ∧ k ∉ on) := by
  simp [disabledAfter, mem_allKinds]

/-- Freeing the records of disabled kinds changes issue records alone. -/
theorem Part.freeDisabled_frame (p : Part) (gone : List EventKind) :
    ∃ issues, p.freeDisabled gone = { p with issues := issues } := by
  refine foldl_step (R := fun p q => ∃ issues, q = { p with issues := issues }) (fun p => ⟨p.issues, rfl⟩) ?_
    (fun q n => ?_) allIssues p
  · rintro p _ _ ⟨_, rfl⟩ ⟨_, rfl⟩
    exact ⟨_, rfl⟩
  · split
    · split
      · exact ⟨_, rfl⟩
      · exact ⟨q.issues, rfl⟩
    · exact ⟨q.issues, rfl⟩

/-- What is left of a pending report whose list loses the kinds turned off; nothing of one whose list is emptied. -/
theorem Part.mem_removeKinds {p : Part} {gone : List EventKind} {r : PendingReport}
    (h : r ∈ (p.removeKinds gone).reports) : r.kinds ≠ [] ∧ ∀ k ∈ r.kinds, k ∉ gone := by
  obtain ⟨x, -, left⟩ := List.mem_filterMap.mp h
  dsimp only at left
  split at left
  · cases left
  · next nonempty =>
    cases left
    refine ⟨fun empty => nonempty (List.isEmpty_iff.mpr empty), fun k hk => ?_⟩
    have kept := (List.mem_filter.mp hk).2
    simpa using kept

/-- The part with these kinds disabled, of which those of `gone` were enabled: they leave the pending reports, and the
issue records that show them are freed. -/
def Part.withDisabled (p : Part) (disabled gone : List EventKind) : Part :=
  (({ p with profile := { p.profile with disabledKinds := disabled } } : Part).removeKinds gone).freeDisabled gone

theorem Part.withDisabled_frame (p : Part) (disabled gone : List EventKind) :
    p.withDisabled disabled gone =
      { p with
        profile := { p.profile with disabledKinds := disabled }
        issues := (p.withDisabled disabled gone).issues, reports := (p.withDisabled disabled gone).reports } := by
  obtain ⟨issues, freed⟩ := Part.freeDisabled_frame
    (({ p with profile := { p.profile with disabledKinds := disabled } } : Part).removeKinds gone) gone
  rw [Part.withDisabled, freed]
  rfl

theorem Part.mem_withDisabled {p : Part} {disabled gone : List EventKind} {r : PendingReport}
    (h : r ∈ (p.withDisabled disabled gone).reports) : r.kinds ≠ [] ∧ ∀ k ∈ r.kinds, k ∉ gone := by
  obtain ⟨issues, freed⟩ := Part.freeDisabled_frame
    (({ p with profile := { p.profile with disabledKinds := disabled } } : Part).removeKinds gone) gone
  rw [Part.withDisabled, freed] at h
  exact Part.mem_removeKinds h

/-- The kinds that a change of the disabled kinds turns off. -/
def turnedOff (before after : List EventKind) : List EventKind := after.filter fun k => !before.contains k

theorem mem_turnedOff {before after : List EventKind} {k : EventKind} :
    k ∈ turnedOff before after ↔ k ∈ after ∧ k ∉ before := by simp [turnedOff]

theorem Part.reportEnable_eq (p : Part) (on off : List EventKind) :
    p.reportEnable on off =
      p.withDisabled (disabledAfter p.profile.disabledKinds on off)
        (turnedOff p.profile.disabledKinds (disabledAfter p.profile.disabledKinds on off)) := rfl

/-- Settles O56: the owner answers at once with the part in which the kinds turned off are disabled. -/
theorem reportEnableSetsTheKinds : Obligations.ReportEnableSetsTheKinds := by
  intro s tag on off a b takes named
  have owned : ownReportEnable on off s.nv s.part = (s.part.reportEnable a b,
      .reply .ok [fld "off" (commasOrDash ((s.part.reportEnable a b).profile.disabledKinds.map kindText))]) := by
    simp only [ownReportEnable, named]
  obtain ⟨t, run, answered, part⟩ := exec_answered (i := .reportEnable tag on off) takes rfl owned
  have made := part.trans (s.part.reportEnable_eq a b)
  have frame := s.part.withDisabled_frame (disabledAfter s.part.profile.disabledKinds a b)
    (turnedOff s.part.profile.disabledKinds (disabledAfter s.part.profile.disabledKinds a b))
  rw [← made] at frame
  have kinds : t.part.profile.disabledKinds = disabledAfter s.part.profile.disabledKinds a b := by rw [frame]
  rw [← part] at answered
  refine ⟨t, run, answered, fun k => ?kinds, fun r pending => ?reports, ?frame⟩
  case kinds => rw [kinds, mem_disabledAfter]
  case reports =>
    rw [made] at pending
    obtain ⟨nonempty, kept⟩ := Part.mem_withDisabled pending
    exact ⟨nonempty, fun k listed disabled => Decidable.byContradiction fun enabled =>
      kept k listed (mem_turnedOff.mpr ⟨kinds ▸ disabled, enabled⟩)⟩
  case frame => rw [kinds]; exact frame

end Sys2Proof.Machine
end
